-- ==== Sys2Proof/Word.lean ====
section
/-! DEFINITION. The widths the machine works in: nibbles, bytes, 12-bit addresses and 16-bit words
(`00_scope.md` §5, `30_encoding.md` R71). All values are unsigned. -/

namespace Sys2Proof

/-- A 4-bit field: a register index X or Y, the immediate N, a logical key. -/
abbrev Nibble := BitVec 4

/-- A byte: a general register, a memory byte, the immediate NN. -/
abbrev Byte := BitVec 8

/-- The 12-bit address field NNN. -/
abbrev Addr12 := BitVec 12

/-- A 16-bit word: an opcode, `pc`, `I`, a stack entry. -/
abbrev Word := BitVec 16

end Sys2Proof
end

