-- ==== Sys2Proof/Config.lean ====
section
/-! DEFINITION. The implementation parameters of `00_scope.md` §4: the constants the spec fixes (R3 to R12), the named
parameters a model takes as arguments (R13), and the two free values of the machine (RANDOM and KEY_POLL_SELECT). -/

namespace Sys2Proof

/-- How DXYN forms the collision flag (R13, `44_display.md` R146 and R147). -/
inductive CollisionMode where
  /-- VF is the outcome of the last on-screen set bit (the spec's default, R146). -/
  | lastBit
  /-- VF is 1 when any on-screen set bit collided (R147). -/
  | anyBit
  deriving DecidableEq, Repr

/-- What EX9E and EXA1 do when VX maps to no key (R13, `46_keys.md` R174). -/
inductive UnmappedKeyPolicy where
  /-- The instruction changes nothing, not even pc (the spec's default). -/
  | stall
  /-- The instruction advances pc by 2. -/
  | advance
  deriving DecidableEq, Repr

/-- The named parameters of R13 that are data. A machine instance carries one `Config` and no step changes it
(log entry 1). TICK_PERIOD has no field: no rule reads it (R11, log entry 16). -/
structure Config where
  /-- FONT: glyph d is `font[d]`, 5 bytes, one per row (R6, `43_index_memory.md` R139). -/
  font : Vector (Vector Byte 5) 16
  /-- COLLISION_MODE. -/
  collisionMode : CollisionMode
  /-- UNMAPPED_KEY_POLICY. -/
  unmappedKeyPolicy : UnmappedKeyPolicy
  /-- RENDER_ON_RGBA, the four bytes of an on pixel (`44_display.md` R148). -/
  renderOn : Vector Byte 4
  /-- RENDER_OFF_RGBA, the four bytes of an off pixel (`44_display.md` R148). -/
  renderOff : Vector Byte 4
  deriving DecidableEq, Repr

/-- "the only requirement a model may rely on is RENDER_ON_RGBA ≠ RENDER_OFF_RGBA" (`44_display.md` R148). -/
abbrev Config.wf (c : Config) : Prop := c.renderOn ≠ c.renderOff

/-- The default font table of `43_index_memory.md` R139.
PRESUMED: the bytes are the spec's general knowledge, not its source's (log entry 2). -/
def Config.defaultFont : Vector (Vector Byte 5) 16 := #v[
  #v[0xF0, 0x90, 0x90, 0x90, 0xF0], -- 0
  #v[0x20, 0x60, 0x20, 0x20, 0x70], -- 1
  #v[0xF0, 0x10, 0xF0, 0x80, 0xF0], -- 2
  #v[0xF0, 0x10, 0xF0, 0x10, 0xF0], -- 3
  #v[0x90, 0x90, 0xF0, 0x10, 0x10], -- 4
  #v[0xF0, 0x80, 0xF0, 0x10, 0xF0], -- 5
  #v[0xF0, 0x80, 0xF0, 0x90, 0xF0], -- 6
  #v[0xF0, 0x10, 0x20, 0x40, 0x40], -- 7
  #v[0xF0, 0x90, 0xF0, 0x90, 0xF0], -- 8
  #v[0xF0, 0x90, 0xF0, 0x10, 0xF0], -- 9
  #v[0xF0, 0x90, 0xF0, 0x90, 0x90], -- A
  #v[0xE0, 0x90, 0xE0, 0x90, 0xE0], -- B
  #v[0xF0, 0x80, 0x80, 0x80, 0xF0], -- C
  #v[0xE0, 0x90, 0x90, 0x90, 0xE0], -- D
  #v[0xF0, 0x80, 0xF0, 0x80, 0xF0], -- E
  #v[0xF0, 0x80, 0xF0, 0x80, 0x80]] -- F

/-- The parameters at the spec's defaults (R13, `95_test_vectors.md` preamble).
DESIGN CHOICE: the colours, which the spec leaves open, are opaque black for on and transparent for off (log entry 4). -/
def Config.standard : Config where
  font := Config.defaultFont
  collisionMode := .lastBit
  unmappedKeyPolicy := .stall
  renderOn := #v[0x00, 0x00, 0x00, 0xFF]
  renderOff := #v[0x00, 0x00, 0x00, 0x00]

/-- MEM_SIZE (R3): addresses 0x000 to 0xFFF. -/
abbrev Config.memSize : Nat := 0x1000

/-- FONT_BASE (R6). -/
abbrev Config.fontBase : Nat := 0x050

/-- PROG_BASE (R7). -/
abbrev Config.progBase : Nat := 0x200

/-- BATCH (R9). -/
abbrev Config.batchSize : Nat := 8

/-- STACK_DEPTH (R12). -/
abbrev Config.stackDepth : Nat := 16

/-- FREE VALUE (RANDOM, `42_register_alu.md` R121): the byte that the n-th draw gives, of which nothing is known
(log entry 5). -/
opaque Config.randomByte : Nat → Byte

/-- FREE VALUE (KEY_POLL_SELECT, `46_keys.md` R181): the n-th choice among several pressed keys, of which nothing is
known (log entry 6). -/
opaque Config.pollChoice : Nat → Nat

end Sys2Proof
end

