-- ==== Sys2Proof/Syntax.lean ====
section
/-! DEFINITION. The instructions: one constructor per row of `30_encoding.md` R76, and the decoder's field set of
`40_cycle.md` R92. Each operand has exactly the width of its field, so that no operand is out of range. -/

namespace Sys2Proof

/-- The decoder's output fields (`40_cycle.md` R92, `30_encoding.md` R71): every field is present for every word. -/
structure Fields where
  /-- The opcode itself. -/
  op : Word
  /-- Instruction class. -/
  c : Nibble
  x : Nibble
  y : Nibble
  n : Nibble
  nn : Byte
  nnn : Addr12
  deriving DecidableEq, Repr

/-- The 34 instructions, in the order of R76. -/
inductive Instr where
  /-- 00E0 `CLS`: clear framebuffer. -/
  | cls
  /-- 00EE `RET`: return. -/
  | ret
  /-- 1NNN `JP nnn`: jump. -/
  | jp (nnn : Addr12)
  /-- 2NNN `CALL nnn`: call. -/
  | call (nnn : Addr12)
  /-- 3XNN `SE Vx, nn`: skip if VX == NN. -/
  | seImm (x : Nibble) (nn : Byte)
  /-- 4XNN `SNE Vx, nn`: skip if VX != NN. -/
  | sneImm (x : Nibble) (nn : Byte)
  /-- 5XY0 `SE Vx, Vy`: skip if VX == VY. The low nibble `n` is kept, not examined (R77). -/
  | seReg (x y n : Nibble)
  /-- 6XNN `LD Vx, nn`: VX := NN. -/
  | ldImm (x : Nibble) (nn : Byte)
  /-- 7XNN `ADD Vx, nn`: VX := VX + NN, no flag. -/
  | addImm (x : Nibble) (nn : Byte)
  /-- 8XY0 `LD Vx, Vy`: VX := VY. -/
  | ldReg (x y : Nibble)
  /-- 8XY1 `OR Vx, Vy`. -/
  | orReg (x y : Nibble)
  /-- 8XY2 `AND Vx, Vy`. -/
  | andReg (x y : Nibble)
  /-- 8XY3 `XOR Vx, Vy`. -/
  | xorReg (x y : Nibble)
  /-- 8XY4 `ADD Vx, Vy`: VF = carry. -/
  | addReg (x y : Nibble)
  /-- 8XY5 `SUB Vx, Vy`: VX − VY, VF = no borrow. -/
  | subReg (x y : Nibble)
  /-- 8XY6 `SHR Vx, Vy`: VX := VY >> 1, VF = bit out. -/
  | shrReg (x y : Nibble)
  /-- 8XY7 `SUBN Vx, Vy`: VY − VX, VF = no borrow. -/
  | subnReg (x y : Nibble)
  /-- 8XYE `SHL Vx, Vy`: VX := VY << 1, VF = bit out. -/
  | shlReg (x y : Nibble)
  /-- 9XY0 `SNE Vx, Vy`: skip if VX != VY. The low nibble `n` is kept, not examined (R77). -/
  | sneReg (x y n : Nibble)
  /-- ANNN `LD I, nnn`: I := NNN. -/
  | ldI (nnn : Addr12)
  /-- BNNN `JP V0, nnn`: jump to NNN + V0. -/
  | jpV0 (nnn : Addr12)
  /-- CXNN `RND Vx, nn`: random AND NN. -/
  | rnd (x : Nibble) (nn : Byte)
  /-- DXYN `DRW Vx, Vy, n`: sprite draw. -/
  | drw (x y n : Nibble)
  /-- EX9E `SKP Vx`: skip if key VX pressed. -/
  | skp (x : Nibble)
  /-- EXA1 `SKNP Vx`: skip if key VX not pressed. -/
  | sknp (x : Nibble)
  /-- FX07 `LD Vx, DT`: VX := DT. -/
  | ldVxDT (x : Nibble)
  /-- FX0A `LD Vx, K`: key-wait. -/
  | ldVxK (x : Nibble)
  /-- FX15 `LD DT, Vx`: DT := VX. -/
  | ldDTVx (x : Nibble)
  /-- FX18 `LD ST, Vx`: ST := VX. -/
  | ldSTVx (x : Nibble)
  /-- FX1E `ADD I, Vx`: I := I + VX, no flag. -/
  | addI (x : Nibble)
  /-- FX29 `LD F, Vx`: I := glyph address of VX. -/
  | ldF (x : Nibble)
  /-- FX33 `LD B, Vx`: BCD of VX at I. -/
  | ldB (x : Nibble)
  /-- FX55 `LD [I], Vx`: store V0..VX at I. -/
  | storeRegs (x : Nibble)
  /-- FX65 `LD Vx, [I]`: load V0..VX from I. -/
  | loadRegs (x : Nibble)
  deriving DecidableEq, Repr

/-- The instruction's name in the spec: its pattern in R76 (R81: "the pattern as the instruction's name"). -/
def Instr.mnemonic : Instr → String
  | .cls => "00E0"
  | .ret => "00EE"
  | .jp _ => "1NNN"
  | .call _ => "2NNN"
  | .seImm _ _ => "3XNN"
  | .sneImm _ _ => "4XNN"
  | .seReg _ _ _ => "5XY0"
  | .ldImm _ _ => "6XNN"
  | .addImm _ _ => "7XNN"
  | .ldReg _ _ => "8XY0"
  | .orReg _ _ => "8XY1"
  | .andReg _ _ => "8XY2"
  | .xorReg _ _ => "8XY3"
  | .addReg _ _ => "8XY4"
  | .subReg _ _ => "8XY5"
  | .shrReg _ _ => "8XY6"
  | .subnReg _ _ => "8XY7"
  | .shlReg _ _ => "8XYE"
  | .sneReg _ _ _ => "9XY0"
  | .ldI _ => "ANNN"
  | .jpV0 _ => "BNNN"
  | .rnd _ _ => "CXNN"
  | .drw _ _ _ => "DXYN"
  | .skp _ => "EX9E"
  | .sknp _ => "EXA1"
  | .ldVxDT _ => "FX07"
  | .ldVxK _ => "FX0A"
  | .ldDTVx _ => "FX15"
  | .ldSTVx _ => "FX18"
  | .addI _ => "FX1E"
  | .ldF _ => "FX29"
  | .ldB _ => "FX33"
  | .storeRegs _ => "FX55"
  | .loadRegs _ => "FX65"

end Sys2Proof
end

