-- ==== Sys2Proof/WellFormed.lean ====
section
/-! DEFINITION. What is well-formed: the opcode map of `30_encoding.md` R76 as data, the words it makes legal (R78),
and the agreement of a decoder's field set with its opcode (R71). An `Instr` needs no check of its own: each operand
has exactly the width of its field, so every term of `Instr` is well-formed. What can be ill-formed is a word, which
may match no row, and a field set, which may disagree with its opcode. -/

namespace Sys2Proof

/-- A row of the opcode map: a word `w` matches when `w &&& mask = value` (R76). -/
structure OpRow where
  pattern : String
  mask : Word
  value : Word
  deriving DecidableEq, Repr

/-- `op & mask == match` (R76). -/
def OpRow.matches (r : OpRow) (w : Word) : Bool := w &&& r.mask == r.value

/-- Rows 1 to 9 of R76 (classes 0 to 7). -/
def opcodeRowsLow : List OpRow :=
  [⟨"00E0", 0xFFFF, 0x00E0⟩,
   ⟨"00EE", 0xFFFF, 0x00EE⟩,
   ⟨"1NNN", 0xF000, 0x1000⟩,
   ⟨"2NNN", 0xF000, 0x2000⟩,
   ⟨"3XNN", 0xF000, 0x3000⟩,
   ⟨"4XNN", 0xF000, 0x4000⟩,
   ⟨"5XY0", 0xF000, 0x5000⟩,
   ⟨"6XNN", 0xF000, 0x6000⟩,
   ⟨"7XNN", 0xF000, 0x7000⟩]

/-- Rows 10 to 18 of R76 (class 8). -/
def opcodeRowsEight : List OpRow :=
  [⟨"8XY0", 0xF00F, 0x8000⟩,
   ⟨"8XY1", 0xF00F, 0x8001⟩,
   ⟨"8XY2", 0xF00F, 0x8002⟩,
   ⟨"8XY3", 0xF00F, 0x8003⟩,
   ⟨"8XY4", 0xF00F, 0x8004⟩,
   ⟨"8XY5", 0xF00F, 0x8005⟩,
   ⟨"8XY6", 0xF00F, 0x8006⟩,
   ⟨"8XY7", 0xF00F, 0x8007⟩,
   ⟨"8XYE", 0xF00F, 0x800E⟩]

/-- Rows 19 to 25 of R76 (classes 9 to E). -/
def opcodeRowsHigh : List OpRow :=
  [⟨"9XY0", 0xF000, 0x9000⟩,
   ⟨"ANNN", 0xF000, 0xA000⟩,
   ⟨"BNNN", 0xF000, 0xB000⟩,
   ⟨"CXNN", 0xF000, 0xC000⟩,
   ⟨"DXYN", 0xF000, 0xD000⟩,
   ⟨"EX9E", 0xF0FF, 0xE09E⟩,
   ⟨"EXA1", 0xF0FF, 0xE0A1⟩]

/-- Rows 26 to 34 of R76 (class F). -/
def opcodeRowsF : List OpRow :=
  [⟨"FX07", 0xF0FF, 0xF007⟩,
   ⟨"FX0A", 0xF0FF, 0xF00A⟩,
   ⟨"FX15", 0xF0FF, 0xF015⟩,
   ⟨"FX18", 0xF0FF, 0xF018⟩,
   ⟨"FX1E", 0xF0FF, 0xF01E⟩,
   ⟨"FX29", 0xF0FF, 0xF029⟩,
   ⟨"FX33", 0xF0FF, 0xF033⟩,
   ⟨"FX55", 0xF0FF, 0xF055⟩,
   ⟨"FX65", 0xF0FF, 0xF065⟩]

/-- The complete opcode map (R76). -/
def opcodeMap : List OpRow := opcodeRowsLow ++ opcodeRowsEight ++ opcodeRowsHigh ++ opcodeRowsF

/-- A word is legal when it matches a row; "A word is illegal when it matches no row" (R78). -/
def legalWord (w : Word) : Bool := opcodeMap.any (fun r => r.matches w)

/-- A field set is well-formed when each field holds the bits of the opcode that R71 gives it. -/
abbrev Fields.wellFormed (f : Fields) : Prop :=
  f.c = f.op.extractLsb' 12 4 ∧ f.x = f.op.extractLsb' 8 4 ∧ f.y = f.op.extractLsb' 4 4 ∧
  f.n = f.op.extractLsb' 0 4 ∧ f.nn = f.op.extractLsb' 0 8 ∧ f.nnn = f.op.extractLsb' 0 12

end Sys2Proof
end

