-- ==== Sys2Proof/Decode.lean ====
section
/-! DEFINITION. The Instruction Decoder, a pure function from a 16-bit word to the field set and the instruction
(`40_cycle.md` R90, R92, R94; `30_encoding.md` R71 to R78), and after it the encoder. -/

namespace Sys2Proof

/-- Why a word is no instruction: the four illegal families of `30_encoding.md` R78, each with the word. -/
inductive DecodeReject where
  /-- Class 0, not 0x00E0 or 0x00EE. -/
  | illegalClass0 (op : Word)
  /-- Class 8 with N in 8..D or F. -/
  | illegalClass8 (op : Word)
  /-- Class E with NN not 9E or A1. -/
  | illegalClassE (op : Word)
  /-- Class F with NN none of the nine listed. -/
  | illegalClassF (op : Word)
  deriving DecidableEq, Repr

/-- The fields of a word, at the bit positions of R71. -/
def fieldsOf (op : Word) : Fields where
  op := op
  c := op.extractLsb' 12 4
  x := op.extractLsb' 8 4
  y := op.extractLsb' 4 4
  n := op.extractLsb' 0 4
  nn := op.extractLsb' 0 8
  nnn := op.extractLsb' 0 12

/-- Second level of class 0: the whole word (R74). -/
def selectClass0 (f : Fields) : Except DecodeReject Instr :=
  match f.op.toNat with
  | 0x00E0 => .ok .cls
  | 0x00EE => .ok .ret
  | _ => .error (.illegalClass0 f.op)

/-- Second level of class 8: N (R74). -/
def selectClass8 (f : Fields) : Except DecodeReject Instr :=
  match f.n.toNat with
  | 0x0 => .ok (.ldReg f.x f.y)
  | 0x1 => .ok (.orReg f.x f.y)
  | 0x2 => .ok (.andReg f.x f.y)
  | 0x3 => .ok (.xorReg f.x f.y)
  | 0x4 => .ok (.addReg f.x f.y)
  | 0x5 => .ok (.subReg f.x f.y)
  | 0x6 => .ok (.shrReg f.x f.y)
  | 0x7 => .ok (.subnReg f.x f.y)
  | 0xE => .ok (.shlReg f.x f.y)
  | _ => .error (.illegalClass8 f.op)

/-- Second level of class E: NN (R74). -/
def selectClassE (f : Fields) : Except DecodeReject Instr :=
  match f.nn.toNat with
  | 0x9E => .ok (.skp f.x)
  | 0xA1 => .ok (.sknp f.x)
  | _ => .error (.illegalClassE f.op)

/-- Second level of class F: NN (R74). -/
def selectClassF (f : Fields) : Except DecodeReject Instr :=
  match f.nn.toNat with
  | 0x07 => .ok (.ldVxDT f.x)
  | 0x0A => .ok (.ldVxK f.x)
  | 0x15 => .ok (.ldDTVx f.x)
  | 0x18 => .ok (.ldSTVx f.x)
  | 0x1E => .ok (.addI f.x)
  | 0x29 => .ok (.ldF f.x)
  | 0x33 => .ok (.ldB f.x)
  | 0x55 => .ok (.storeRegs f.x)
  | 0x65 => .ok (.loadRegs f.x)
  | _ => .error (.illegalClassF f.op)

/-- First level: the top nibble, then the second level of classes 0, 8, E and F (R73). The last arm is class F. -/
def select (f : Fields) : Except DecodeReject Instr :=
  match f.c.toNat with
  | 0x0 => selectClass0 f
  | 0x1 => .ok (.jp f.nnn)
  | 0x2 => .ok (.call f.nnn)
  | 0x3 => .ok (.seImm f.x f.nn)
  | 0x4 => .ok (.sneImm f.x f.nn)
  | 0x5 => .ok (.seReg f.x f.y f.n)
  | 0x6 => .ok (.ldImm f.x f.nn)
  | 0x7 => .ok (.addImm f.x f.nn)
  | 0x8 => selectClass8 f
  | 0x9 => .ok (.sneReg f.x f.y f.n)
  | 0xA => .ok (.ldI f.nnn)
  | 0xB => .ok (.jpV0 f.nnn)
  | 0xC => .ok (.rnd f.x f.nn)
  | 0xD => .ok (.drw f.x f.y f.n)
  | 0xE => selectClassE f
  | _ => selectClassF f

/-- The decoder: every word gives exactly one instruction or is rejected by name (R83). -/
def decode (op : Word) : Except DecodeReject Instr := select (fieldsOf op)

/-- The word of two consecutive bytes, big-endian (`20_memory.md` R54, R55). -/
def wordOfBytes (hi lo : Byte) : Word := hi ++ lo

/-- The two bytes of a word, in the order memory holds them (R55). -/
def bytesOfWord (w : Word) : List Byte := [w.extractLsb' 8 8, w.extractLsb' 0 8]

/-- Decoding from a list of bytes; missing bytes read as 0 (R54). Gives the instruction and the bytes after it. -/
def decodeBytes (bs : List Byte) : Except DecodeReject (Instr × List Byte) :=
  match decode (wordOfBytes (bs[0]?.getD 0) (bs[1]?.getD 0)) with
  | .ok i => .ok (i, bs.drop 2)
  | .error e => .error e

/-! The encoder, from the same layouts of `30_encoding.md` R71 and R76. -/

/-- Layout C, NNN. -/
def encodeAddr (c : Nibble) (nnn : Addr12) : Word := c ++ nnn

/-- Layout C, X, NN. -/
def encodeImm (c x : Nibble) (nn : Byte) : Word := c ++ x ++ nn

/-- Layout C, X, Y, N. -/
def encodeNibbles (c x y n : Nibble) : Word := c ++ x ++ y ++ n

/-- The word of an instruction (R76). -/
def encode : Instr → Word
  | .cls => 0x00E0
  | .ret => 0x00EE
  | .jp nnn => encodeAddr 0x1 nnn
  | .call nnn => encodeAddr 0x2 nnn
  | .seImm x nn => encodeImm 0x3 x nn
  | .sneImm x nn => encodeImm 0x4 x nn
  | .seReg x y n => encodeNibbles 0x5 x y n
  | .ldImm x nn => encodeImm 0x6 x nn
  | .addImm x nn => encodeImm 0x7 x nn
  | .ldReg x y => encodeNibbles 0x8 x y 0x0
  | .orReg x y => encodeNibbles 0x8 x y 0x1
  | .andReg x y => encodeNibbles 0x8 x y 0x2
  | .xorReg x y => encodeNibbles 0x8 x y 0x3
  | .addReg x y => encodeNibbles 0x8 x y 0x4
  | .subReg x y => encodeNibbles 0x8 x y 0x5
  | .shrReg x y => encodeNibbles 0x8 x y 0x6
  | .subnReg x y => encodeNibbles 0x8 x y 0x7
  | .shlReg x y => encodeNibbles 0x8 x y 0xE
  | .sneReg x y n => encodeNibbles 0x9 x y n
  | .ldI nnn => encodeAddr 0xA nnn
  | .jpV0 nnn => encodeAddr 0xB nnn
  | .rnd x nn => encodeImm 0xC x nn
  | .drw x y n => encodeNibbles 0xD x y n
  | .skp x => encodeImm 0xE x 0x9E
  | .sknp x => encodeImm 0xE x 0xA1
  | .ldVxDT x => encodeImm 0xF x 0x07
  | .ldVxK x => encodeImm 0xF x 0x0A
  | .ldDTVx x => encodeImm 0xF x 0x15
  | .ldSTVx x => encodeImm 0xF x 0x18
  | .addI x => encodeImm 0xF x 0x1E
  | .ldF x => encodeImm 0xF x 0x29
  | .ldB x => encodeImm 0xF x 0x33
  | .storeRegs x => encodeImm 0xF x 0x55
  | .loadRegs x => encodeImm 0xF x 0x65

/-- The 16-bit word that the low `nbits` bits of `w` give: a table row is one word, bit 0 its least significant bit,
and bits the row does not give are 0. -/
def tableWord (nbits w : Nat) : Word := BitVec.ofNat 16 (w % 2 ^ nbits)

/-- The instruction the decoder reads from a table word, laid out in memory order (the host's question). -/
def decodeTableWord (nbits w : Nat) : Option Instr :=
  match decodeBytes (bytesOfWord (tableWord nbits w)) with
  | .ok (i, _) => some i
  | .error _ => none

end Sys2Proof
end

