-- ==== Sys2Proof/Machine/State.lean ====
section
/-! DEFINITION. The architectural state of the block (`10_state.md` R20 to R37), the model's own fields beside it, and
the state after construction. -/

namespace Sys2Proof.Machine

/-- Memory as the bytes that differ from the reset contents, addresses strictly rising (`Memory.wf` in `Ops.lean`). -/
abbrev Memory := List Host.Cell

/-- The framebuffer: `FB[x][y]` is the pixel at column x (0 to 63) and row y (0 to 31), true = on (R27). -/
abbrev Framebuffer := Vector (Vector Bool 32) 64

/-- The key-wait indicator (R29). -/
inductive Wait where
  | idle
  | waiting (r : Nibble)
  deriving DecidableEq, Repr

/-- The fault codes of `60_exceptions.md` R210. A fault is taken as a NEXT state with the record written (R212,
log entry 12), so none of these is a constructor of `Fault` below. -/
inductive FaultCode where
  /-- Code 1: a word that matches no row of the opcode map. -/
  | illegalInstruction
  /-- Code 2: 00EE on an empty stack. -/
  | stackUnderflow
  /-- Code 3: 2NNN on a full stack. -/
  | stackOverflow
  /-- Code 4: DXYN, FX33, FX55 or FX65 at an address above 0xFFF. -/
  | memoryFault
  /-- Code 5: FX1E with I + VX above 0xFFFF. -/
  | indexOverflow
  deriving DecidableEq, Repr

/-- The fault record (R33): the code, the faulting instruction's address and its word. -/
structure FaultRecord where
  code : FaultCode
  pc : Word
  op : Word
  deriving DecidableEq, Repr

/-- The host's operations and the tick strobe (`47_scheduler_host.md` R190, R200). -/
inductive HostEvent where
  /-- TICK_PERIOD has passed (R190). -/
  | tick
  | start
  | stop
  | reset
  | loadBuffer (bytes : List Byte)
  | toggleMute
  | keyDown (k : Nibble)
  | keyUp (k : Nibble)
  deriving DecidableEq, Repr

/-- What the block gives the host (`47_scheduler_host.md` R200). The fault port is the field `fault`. -/
inductive Output where
  /-- The beep pulse of a timer phase (`45_timers.md` R164). -/
  | beepTrigger
  /-- "BeepTrigger and not mute", one bit with each beep pulse (`45_timers.md` R165). -/
  | audible (on : Bool)
  /-- The sound timer's decrement reached 0 (`45_timers.md` R166). -/
  | timerElapsed
  /-- The snapshot render() hands to the pixel surface (`44_display.md` R143). -/
  | frame (fb : Framebuffer)
  /-- The value toggleMute() returns (`47_scheduler_host.md` R199). -/
  | muteState (mute : Bool)
  deriving DecidableEq, Repr

/-- Where the block stands in the procedure Tick() of `47_scheduler_host.md` R191 (log entry 8). -/
inductive Phase where
  /-- Between ticks: the next step takes a host event, or starts the next tick. -/
  | between
  /-- Inside "repeat BATCH times", with `left` cycles still to run. -/
  | batch (left : Nat)
  /-- The instruction part of the tick is over: the timer phase and the render remain. -/
  | finish
  deriving DecidableEq, Repr

/-- The state: the fourteen pieces of R20, then the model's own fields. -/
structure State where
  /-- `mem[0x000..0xFFF]` (`20_memory.md` R50). -/
  mem : Memory
  /-- V0 to VF (R21). -/
  V : Vector Byte 16
  /-- The index register (R23). -/
  I : Word
  /-- The program counter (R22). -/
  pc : Word
  /-- The call stack, oldest entry first (R24). -/
  stack : List Word
  /-- The delay timer (R25). -/
  DT : Byte
  /-- The sound timer (R25). -/
  ST : Byte
  /-- `keys[k]` is true while logical key k is pressed (R28). -/
  keys : Vector Bool 16
  /-- The key-wait indicator (R29). -/
  wait : Wait
  /-- The key-just-pressed marker (R30). -/
  marker : Option Nibble
  /-- The framebuffer (R27). -/
  FB : Framebuffer
  /-- The scheduler is armed (R31). -/
  running : Bool
  /-- The mute flag (R32). -/
  mute : Bool
  /-- The fault record (R33). -/
  fault : Option FaultRecord
  /-- MODEL'S OWN: the parameters of the machine, written by no step (log entry 1). -/
  config : Config
  /-- MODEL'S OWN: the place in the tick (log entry 8). -/
  phase : Phase
  /-- MODEL'S OWN: host events not yet taken, first to be taken first (log entry 9). -/
  inputs : List HostEvent
  /-- MODEL'S OWN: what the latest step gave the host (log entry 10). -/
  out : List Output
  /-- MODEL'S OWN: how many free values have been drawn (log entry 7). -/
  draws : Nat
  deriving DecidableEq, Repr

/-- The reasons a step stops. There are none: every situation the source leaves undefined is a fault record and the
block ticks on (`60_exceptions.md` R213, `47_scheduler_host.md` R201; log entry 12). -/
inductive Fault where
  deriving DecidableEq, Repr

/-- The reasons an instruction is not run. -/
inductive Refusal where
  /-- Raised by an arm of `exec` whose instruction has no meaning yet; no arm does so now. Safe. -/
  | notModelled (mnemonic : String)
  deriving DecidableEq, Repr

/-- What an instruction or a step answers. -/
abbrev Result := Host.Outcome State Fault Refusal

/-- All pixels off. -/
def Framebuffer.blank : Framebuffer := Vector.replicate 64 (Vector.replicate 32 false)

/-- The state after construction (`10_state.md` R37, `70_reset_and_hazards.md` R230), with the model's own fields at
the values of log entries 2, 3, 4, 7, 8, 9 and 10 (DESIGN CHOICE where the spec gives none). -/
def State.reset : State where
  mem := []
  V := Vector.replicate 16 0
  I := 0x0000
  pc := 0x0200
  stack := []
  DT := 0x00
  ST := 0x00
  keys := Vector.replicate 16 false
  wait := .idle
  marker := none
  FB := Framebuffer.blank
  running := false
  mute := false
  fault := none
  config := Config.standard
  phase := .between
  inputs := []
  out := []
  draws := 0

end Sys2Proof.Machine
end

