-- ==== Sys2Proof/Machine/Ops.lean ====
section
/-! DEFINITION. The named operations over the state: registers, pc, memory, call stack, framebuffer, and taking a
fault. -/

namespace Sys2Proof.Machine

/-! ### Field updates -/

def State.setMem (s : State) (m : Memory) : State := { s with mem := m }
def State.setV (s : State) (v : Vector Byte 16) : State := { s with V := v }
def State.setI (s : State) (v : Word) : State := { s with I := v }
def State.setPc (s : State) (v : Word) : State := { s with pc := v }
def State.setStack (s : State) (v : List Word) : State := { s with stack := v }
def State.setDT (s : State) (v : Byte) : State := { s with DT := v }
def State.setST (s : State) (v : Byte) : State := { s with ST := v }
def State.setKeys (s : State) (v : Vector Bool 16) : State := { s with keys := v }
def State.setWait (s : State) (v : Wait) : State := { s with wait := v }
def State.setMarker (s : State) (v : Option Nibble) : State := { s with marker := v }
def State.setFB (s : State) (v : Framebuffer) : State := { s with FB := v }
def State.setRunning (s : State) (v : Bool) : State := { s with running := v }
def State.setMute (s : State) (v : Bool) : State := { s with mute := v }
def State.setFault (s : State) (v : Option FaultRecord) : State := { s with fault := v }
def State.setPhase (s : State) (v : Phase) : State := { s with phase := v }
def State.setInputs (s : State) (v : List HostEvent) : State := { s with inputs := v }
def State.setOut (s : State) (v : List Output) : State := { s with out := v }
def State.setDraws (s : State) (v : Nat) : State := { s with draws := v }

/-! ### General registers (`10_state.md` R21) and pc (`40_cycle.md` R95) -/

/-- `V[r]`. -/
def State.reg (s : State) (r : Nibble) : Byte := s.V[r.toNat]'r.isLt

/-- `V[r] <- v`; a byte is its value modulo 256 (R21, `42_register_alu.md` R122). -/
def State.setReg (s : State) (r : Nibble) (v : Byte) : State := s.setV (s.V.set r.toNat v r.isLt)

/-- VF, the register that is also the flag (R26). -/
def vF : Nibble := 0xF

/-- `pc <- pc + 2`. -/
def State.advance (s : State) : State := s.setPc (s.pc + 2)

/-- `if c then pc <- pc + 4 else pc <- pc + 2`: the skip of `41_control_flow.md` R103 to R106. -/
def State.skipIf (s : State) (c : Bool) : State := s.setPc (if c then s.pc + 4 else s.pc + 2)

/-- `for k = 0 ..: V[from + k] <- bs[k]`; stops at the last register. -/
def fillRegs (v : Vector Byte 16) (k : Nat) : List Byte → Vector Byte 16
  | [] => v
  | b :: bs => fillRegs (v.setIfInBounds k b) (k + 1) bs

/-! ### Memory (`20_memory.md`) -/

/-- What an address that is not listed reads as: the reset contents (R51, `10_state.md` R37), that is glyph d's byte r
at 0x050 + 5·d + r and zero elsewhere. -/
def Memory.background (font : Vector (Vector Byte 5) 16) (a : Nat) : Byte :=
  if h : Config.fontBase ≤ a ∧ a < Config.fontBase + 80 then
    (font[(a - Config.fontBase) / 5]'(by omega))[(a - Config.fontBase) % 5]'(Nat.mod_lt _ (by omega))
  else 0

/-- The listed byte at an address, if any. -/
def Memory.lookup : Memory → Nat → Option Byte
  | [], _ => none
  | (b, v) :: m, a => if a = b then some v else Memory.lookup m a

/-- `mem[a]`. -/
def Memory.get (font : Vector (Vector Byte 5) 16) (m : Memory) (a : Nat) : Byte :=
  (Memory.lookup m a).getD (Memory.background font a)

/-- The canonical form: addresses strictly rising, inside the address space, and no entry equal to what an unlisted
address reads as. -/
abbrev Memory.wf (font : Vector (Vector Byte 5) 16) (m : Memory) : Prop :=
  m.Pairwise (fun c d => c.1 < d.1) ∧ ∀ c ∈ m, c.1 < Config.memSize ∧ c.2 ≠ Memory.background font c.1

/-- The entry of address `a` holding `v`, put before the entries `rest`; none when `v` is what `a` reads as unlisted. -/
def Memory.cons (font : Vector (Vector Byte 5) 16) (a : Nat) (v : Byte) (rest : Memory) : Memory :=
  if v = Memory.background font a then rest else (a, v) :: rest

/-- `mem[a] <- v`, keeping the canonical form. -/
def Memory.set (font : Vector (Vector Byte 5) 16) : Memory → Nat → Byte → Memory
  | [], a, v => Memory.cons font a v []
  | (b, u) :: m, a, v =>
    if a < b then Memory.cons font a v ((b, u) :: m)
    else if a = b then Memory.cons font a v m
    else (b, u) :: Memory.set font m a v

/-- `mem[a + j] <- bs[j]` for each j in order. -/
def Memory.setAll (font : Vector (Vector Byte 5) 16) (m : Memory) (a : Nat) : List Byte → Memory
  | [] => m
  | b :: bs => Memory.setAll font (Memory.set font m a b) (a + 1) bs

/-- The byte of memory at an address. -/
def State.byteAt (s : State) (a : Nat) : Byte := Memory.get s.config.font s.mem a

/-- `FetchByte(a)` (R54): 0x00 past 0xFFF, never a fault. -/
def State.fetchByte (s : State) (a : Nat) : Byte := if a < Config.memSize then s.byteAt a else 0

/-- The word at pc: `{FetchByte(pc), FetchByte(pc + 1)}` (R54, `40_cycle.md` R91). -/
def State.fetchWord (s : State) : Word :=
  wordOfBytes (s.fetchByte s.pc.toNat) (s.fetchByte (s.pc.toNat + 1))

/-- Every one of the `n` addresses from `a` on is inside memory; addresses are exact, with no wrap and no mask
(`43_index_memory.md` R132). -/
def spanInMemory (a n : Nat) : Bool := n == 0 || a + n ≤ Config.memSize

/-- `MemRead` of `n` bytes from `a`, all addresses checked first (R56, R59); none where one is above 0xFFF. -/
def State.memRead (s : State) (a n : Nat) : Option (List Byte) :=
  if spanInMemory a n then some ((List.range n).map (fun k => s.byteAt (a + k))) else none

/-- `MemWrite` of bytes from `a` on, all addresses checked first (R57, R59); none where one is above 0xFFF. -/
def State.memWrite (s : State) (a : Nat) (bs : List Byte) : Option State :=
  if spanInMemory a bs.length then some (s.setMem (Memory.setAll s.config.font s.mem a bs)) else none

/-! ### The call stack (`10_state.md` R24) -/

/-- `push(v)`; none when the stack holds STACK_DEPTH entries. -/
def State.push (s : State) (v : Word) : Option State :=
  if Config.stackDepth ≤ s.stack.length then none else some (s.setStack (s.stack ++ [v]))

/-- `pop()`; none when the stack is empty. -/
def State.pop (s : State) : Option (Word × State) :=
  match s.stack.getLast? with
  | none => none
  | some r => some (r, s.setStack s.stack.dropLast)

/-! ### Faults (`60_exceptions.md`) -/

/-- `raise Fault(code)` for the instruction whose word is `op` (R212): the record is written with the instruction's own
address and nothing else changes, pc included. There is no handler and no return from a fault (R213). -/
def State.raise (s : State) (code : FaultCode) (op : Word) : State := s.setFault (some ⟨code, s.pc, op⟩)

/-- The number of a fault code (R210). -/
def FaultCode.number : FaultCode → Nibble
  | .illegalInstruction => 1
  | .stackUnderflow => 2
  | .stackOverflow => 3
  | .memoryFault => 4
  | .indexOverflow => 5

/-- The fault port (`47_scheduler_host.md` R200): code, pc and op, all 0 while no fault is recorded (`10_state.md`
§9). -/
def State.faultPort (s : State) : Nibble × Word × Word :=
  match s.fault with
  | none => (0, 0, 0)
  | some f => (f.code.number, f.pc, f.op)

/-! ### The framebuffer (`44_display.md`) -/

/-- `FB[x][y]`; a coordinate off the screen reads as off. -/
def Framebuffer.pixel (fb : Framebuffer) (x y : Nat) : Bool :=
  if h : x < 64 ∧ y < 32 then (fb[x]'h.1)[y]'h.2 else false

/-- The pixel inversion of `toggle(x, y)` (R142), which is called only on the screen. -/
def Framebuffer.flip (fb : Framebuffer) (x y : Nat) : Framebuffer :=
  if h : x < 64 ∧ y < 32 then fb.set x ((fb[x]'h.1).set y (!(fb[x]'h.1)[y]'h.2) h.2) h.1 else fb

/-- `clear()` (R141). -/
def State.clearFB (s : State) : State := s.setFB Framebuffer.blank

end Sys2Proof.Machine
end

