-- ==== Sys2Proof/Machine/Operands.lean ====
section
/-! DEFINITION. The operand forms: immediates at their own width (`30_encoding.md` R72), the exact sums that form an
address, the key named by a register value, and the anchor of a sprite. The register operands are the snapshots
`s.reg x` and `s.reg y` taken from the state before the instruction (`40_cycle.md` R93). -/

namespace Sys2Proof.Machine

/-- NNN as an address in a 16-bit register (`41_control_flow.md` R101, `43_index_memory.md` R130). -/
def addrWord (nnn : Addr12) : Word := BitVec.ofNat 16 nnn.toNat

/-- NNN + V0, the exact sum, 0 to 0x10FE (`41_control_flow.md` R107). -/
def offsetTarget (nnn : Addr12) (v0 : Byte) : Word := BitVec.ofNat 16 (nnn.toNat + v0.toNat)

/-- FONT_BASE + VX·5, with VX not masked (`43_index_memory.md` R133). -/
def glyphAddress (vx : Byte) : Word := BitVec.ofNat 16 (Config.fontBase + vx.toNat * 5)

/-- `KeyOf(v)`: key v for v ≤ 0xF, unmapped above (`46_keys.md` R170). -/
def keyOf (v : Byte) : Option Nibble := if v.toNat ≤ 0xF then some (BitVec.ofNat 4 v.toNat) else none

/-- The sprite anchor's column, VX mod 64 (`44_display.md` R146). -/
def anchorX (vx : Byte) : Nat := vx.toNat % 64

/-- The sprite anchor's row, VY mod 32 (`44_display.md` R146). -/
def anchorY (vy : Byte) : Nat := vy.toNat % 32

/-- The three decimal digits of a byte, hundreds first (`43_index_memory.md` R134). -/
def decimalDigits (v : Byte) : List Byte :=
  [BitVec.ofNat 8 (v.toNat / 100), BitVec.ofNat 8 (v.toNat / 10 % 10), BitVec.ofNat 8 (v.toNat % 10)]

end Sys2Proof.Machine
end

