-- ==== Sys2Proof/Machine/Flags.lean ====
section
/-! DEFINITION. The flag computations. VF is the only flag (`10_state.md` R26); an instruction that sets it writes it
after its result, so the flag is VF's final value. -/

namespace Sys2Proof.Machine

/-- A flag as the byte 1 or 0. -/
def flagByte (b : Bool) : Byte := if b then 1 else 0

/-- `V[0xF] <- b ? 1 : 0`. -/
def State.setFlag (s : State) (b : Bool) : State := s.setReg vF (flagByte b)

/-- The carry of 8XY4: vx + vy > 255 (`42_register_alu.md` R116). -/
def carryOut (a b : Byte) : Bool := 255 < a.toNat + b.toNat

/-- The no-borrow of a − b: a ≥ b (`42_register_alu.md` R117, R119). -/
def noBorrow (a b : Byte) : Bool := b.toNat ≤ a.toNat

/-- The bit a right shift moves out, `v & 1` (`42_register_alu.md` R118). -/
def bitOutRight (v : Byte) : Bool := v &&& 1 != 0

/-- The bit a left shift moves out, `(v & 0x80) >> 7` (`42_register_alu.md` R120). -/
def bitOutLeft (v : Byte) : Bool := (v &&& 0x80) >>> 7 != 0

/-- VF before the first row of a sprite: unchanged in LAST_BIT, 0 in ANY_BIT (`44_display.md` R146, R147). -/
def collisionStart (mode : CollisionMode) (vf : Byte) : Byte :=
  match mode with
  | .lastBit => vf
  | .anyBit => 0

/-- VF after an on-screen set bit whose pixel was `prev` (`44_display.md` R146, R147). -/
def collisionStep (mode : CollisionMode) (vf : Byte) (prev : Bool) : Byte :=
  match mode with
  | .lastBit => flagByte prev
  | .anyBit => vf ||| flagByte prev

end Sys2Proof.Machine
end

