-- ==== Sys2Proof/Machine/Display.lean ====
section
/-! DEFINITION. The Display Compositor: 00E0, DXYN and the render output (`44_display.md`). -/

namespace Sys2Proof.Machine

/-- 00E0 (R145): `clear(); pc <- pc + 2`. -/
def execCls (s : State) : Result := .next s.clearFB.advance

/-- What a sprite draw changes: the framebuffer and VF. -/
abbrev Canvas := Framebuffer × Byte

/-- One set bit of a sprite at pixel (px, py): toggled with its outcome in VF when on the screen, else skipped
(R146, R147). -/
def plot (mode : CollisionMode) (px py : Nat) (c : Canvas) : Canvas :=
  if px < 64 ∧ py < 32 then (Framebuffer.flip c.1 px py, collisionStep mode c.2 (Framebuffer.pixel c.1 px py)) else c

/-- The bits of sprite byte `b` from column `c` on, `n` of them, most significant bit first: bit `b[7 - c]` belongs
to pixel (x0 + c, py). -/
def drawBits (mode : CollisionMode) (b : Byte) (x0 py c : Nat) : Nat → Canvas → Canvas
  | 0, cv => cv
  | n + 1, cv =>
    drawBits mode b x0 py (c + 1) n (if b.getLsbD (7 - c) then plot mode (x0 + c) py cv else cv)

/-- The rows of a sprite, the first at row `py`. -/
def drawRows (mode : CollisionMode) (x0 py : Nat) : List Byte → Canvas → Canvas
  | [], cv => cv
  | b :: bs, cv => drawRows mode x0 (py + 1) bs (drawBits mode b x0 py 0 8 cv)

/-- The canvas after drawing the sprite bytes `bs` at the anchor (x0, y0). -/
def State.drawSprite (s : State) (x0 y0 : Nat) (bs : List Byte) : Canvas :=
  drawRows s.config.collisionMode x0 y0 bs (s.FB, collisionStart s.config.collisionMode (s.reg vF))

/-- DXYN (R146, R147): the anchor is wrapped once, the sprite is clipped, every address is checked first, and the
sprite bytes are read at I, I + 1, ... -/
def execDrw (x y n : Nibble) (s : State) : Result :=
  match s.memRead s.I.toNat n.toNat with
  | none => .next (s.raise .memoryFault (encode (.drw x y n)))
  | some bs =>
    let cv := s.drawSprite (anchorX (s.reg x)) (anchorY (s.reg y)) bs
    .next ((s.setFB cv.1).setReg vF cv.2).advance

/-- The four bytes of a pixel in the render output (R148). -/
def pixelBytes (c : Config) (on : Bool) : Vector Byte 4 := if on then c.renderOn else c.renderOff

/-- The render output of a framebuffer (R148): 8192 bytes, row-major, pixel (x, y) at bytes 4·(64·y + x) on. -/
def renderBytes (c : Config) (fb : Framebuffer) : List Byte :=
  (List.range 2048).flatMap (fun p => (pixelBytes c (Framebuffer.pixel fb (p % 64) (p / 64))).toList)

end Sys2Proof.Machine
end

