-- ==== Sys2Proof/Machine/IndexMemory.lean ====
section
/-! DEFINITION. Index register and memory transfer: ANNN, FX1E, FX29, FX33, FX55 and FX65 (`43_index_memory.md`).
The transfers check every address before any change and leave I alone (R132). -/

namespace Sys2Proof.Machine

/-- ANNN (R130). -/
def execLdI (nnn : Addr12) (s : State) : Result := .next (s.setI (addrWord nnn)).advance

/-- FX1E (R131): the exact sum, IndexOverflow above 0xFFFF, no flag. -/
def execAddI (x : Nibble) (s : State) : Result :=
  let sum := s.I.toNat + (s.reg x).toNat
  if 0xFFFF < sum then .next (s.raise .indexOverflow (encode (.addI x)))
  else .next (s.setI (BitVec.ofNat 16 sum)).advance

/-- FX29 (R133). -/
def execLdF (x : Nibble) (s : State) : Result := .next (s.setI (glyphAddress (s.reg x))).advance

/-- FX33 (R134): the digits of VX at I, I + 1, I + 2, hundreds first. -/
def execLdB (x : Nibble) (s : State) : Result :=
  match s.memWrite s.I.toNat (decimalDigits (s.reg x)) with
  | none => .next (s.raise .memoryFault (encode (.ldB x)))
  | some t => .next t.advance

/-- V0 to VX, in order. -/
def State.regsUpTo (s : State) (x : Nibble) : List Byte := s.V.toList.take (x.toNat + 1)

/-- FX55 (R135): V0..VX to memory from I on. -/
def execStoreRegs (x : Nibble) (s : State) : Result :=
  match s.memWrite s.I.toNat (s.regsUpTo x) with
  | none => .next (s.raise .memoryFault (encode (.storeRegs x)))
  | some t => .next t.advance

/-- FX65 (R136): V0..VX from memory from I on. -/
def execLoadRegs (x : Nibble) (s : State) : Result :=
  match s.memRead s.I.toNat (x.toNat + 1) with
  | none => .next (s.raise .memoryFault (encode (.loadRegs x)))
  | some bs => .next (s.setV (fillRegs s.V 0 bs)).advance

end Sys2Proof.Machine
end

