-- ==== Sys2Proof/Machine/Keys.lean ====
section
/-! DEFINITION. The keys: EX9E, EXA1, FX0A, the key events and the Key-Wait State Machine (`46_keys.md`). -/

namespace Sys2Proof.Machine

/-- `keys[k]`. -/
def State.key (s : State) (k : Nibble) : Bool := s.keys[k.toNat]'k.isLt

/-- `keys[k] <- b`. -/
def State.setKey (s : State) (k : Nibble) (b : Bool) : State := s.setKeys (s.keys.set k.toNat b k.isLt)

/-- A key test that finds VX unmapped (R174): no change at all under STALL, `pc <- pc + 2` under ADVANCE. -/
def State.unmappedKey (s : State) : State :=
  match s.config.unmappedKeyPolicy with
  | .stall => s
  | .advance => s.advance

/-- EX9E (R175): skip if the key numbered VX is pressed. -/
def execSkp (x : Nibble) (s : State) : Result :=
  match keyOf (s.reg x) with
  | none => .next s.unmappedKey
  | some k => .next (s.skipIf (s.key k))

/-- EXA1 (R176): skip if the key numbered VX is not pressed. -/
def execSknp (x : Nibble) (s : State) : Result :=
  match keyOf (s.reg x) with
  | none => .next s.unmappedKey
  | some k => .next (s.skipIf (!s.key k))

/-- FX0A (R177): `wait <- Waiting(x); marker <- none`, pc unchanged. -/
def execLdVxK (x : Nibble) (s : State) : Result := .next ((s.setWait (.waiting x)).setMarker none)

/-- `ResolveWait(k)` (R178); a block that is not waiting has nothing to resolve. -/
def State.resolveWait (s : State) (k : Nibble) : State :=
  match s.wait with
  | .idle => s
  | .waiting r => (((s.setReg r (BitVec.ofNat 8 k.toNat)).setWait .idle).setMarker none).advance

/-- Event KeyDown(k) (R171). -/
def State.keyDown (s : State) (k : Nibble) : State := (s.setKey k true).setMarker (some k)

/-- Event KeyUp(k) (R172): the release, then the resolution when the wait's marker is k (R180). -/
def State.keyUp (s : State) (k : Nibble) : State :=
  if s.marker = some k then (s.setKey k false).resolveWait k else s.setKey k false

/-- The pressed keys, in rising order. -/
def State.pressedKeys (s : State) : List Nibble :=
  ((List.range 16).map (BitVec.ofNat 4)).filter s.key

/-- KEY_POLL_SELECT(P): a member of the pressed keys, a free choice when there are several (R181, log entry 6). -/
def pollSelect (pressed : List Nibble) (choice : Nat) : Option Nibble :=
  match pressed with
  | [] => none
  | [k] => some k
  | k :: l :: ks => (k :: l :: ks)[choice % (ks.length + 2)]?

/-- The poll at the start of a tick that finds the block waiting (R181). -/
def State.poll (s : State) : State :=
  match pollSelect s.pressedKeys (Config.pollChoice s.draws) with
  | none => s
  | some k => (s.setDraws (s.draws + 1)).resolveWait k

end Sys2Proof.Machine
end

