-- ==== Sys2Proof/Machine/RegisterAlu.lean ====
section
/-! DEFINITION. Register loads and arithmetic: 6XNN, 7XNN, 8XY0 to 8XY7, 8XYE and CXNN (`42_register_alu.md`).
Bytes add, subtract and shift modulo 256 (R122). -/

namespace Sys2Proof.Machine

/-- `V[x] <- v; pc <- pc + 2`. -/
def State.writeResult (s : State) (x : Nibble) (v : Byte) : State := (s.setReg x v).advance

/-- `V[x] <- v; V[0xF] <- flag; pc <- pc + 2`, in this order. -/
def State.writeResultFlag (s : State) (x : Nibble) (v : Byte) (flag : Bool) : State :=
  ((s.setReg x v).setFlag flag).advance

/-- 6XNN (R110). -/
def execLdImm (x : Nibble) (nn : Byte) (s : State) : Result := .next (s.writeResult x nn)

/-- 7XNN (R111): no flag. -/
def execAddImm (x : Nibble) (nn : Byte) (s : State) : Result := .next (s.writeResult x (s.reg x + nn))

/-- 8XY0 (R112). -/
def execLdReg (x y : Nibble) (s : State) : Result := .next (s.writeResult x (s.reg y))

/-- 8XY1 (R113): no flag. -/
def execOrReg (x y : Nibble) (s : State) : Result := .next (s.writeResult x (s.reg x ||| s.reg y))

/-- 8XY2 (R114): no flag. -/
def execAndReg (x y : Nibble) (s : State) : Result := .next (s.writeResult x (s.reg x &&& s.reg y))

/-- 8XY3 (R115): no flag. -/
def execXorReg (x y : Nibble) (s : State) : Result := .next (s.writeResult x (s.reg x ^^^ s.reg y))

/-- 8XY4 (R116): the sum, then VF = carry of the old values. -/
def execAddReg (x y : Nibble) (s : State) : Result :=
  .next (s.writeResultFlag x (s.reg x + s.reg y) (carryOut (s.reg x) (s.reg y)))

/-- 8XY5 (R117): vx − vy, then VF = no borrow of the old values. -/
def execSubReg (x y : Nibble) (s : State) : Result :=
  .next (s.writeResultFlag x (s.reg x - s.reg y) (noBorrow (s.reg x) (s.reg y)))

/-- 8XY6 (R118): copy VY into VX, then shift VX right, each line reading the current registers. -/
def execShrReg (x y : Nibble) (s : State) : Result :=
  let s₁ := s.setReg x (s.reg y)
  let b := bitOutRight (s₁.reg x)
  let s₂ := s₁.setReg x (s₁.reg x >>> 1)
  .next (s₂.setFlag b).advance

/-- 8XY7 (R119): vy − vx, then VF = no borrow of the old values. -/
def execSubnReg (x y : Nibble) (s : State) : Result :=
  .next (s.writeResultFlag x (s.reg y - s.reg x) (noBorrow (s.reg y) (s.reg x)))

/-- 8XYE (R120): copy VY into VX, then shift VX left, each line reading the current registers. -/
def execShlReg (x y : Nibble) (s : State) : Result :=
  let s₁ := s.setReg x (s.reg y)
  let b := bitOutLeft (s₁.reg x)
  let s₂ := s₁.setReg x (s₁.reg x <<< 1)
  .next (s₂.setFlag b).advance

/-- `V[x] <- r & nn; pc <- pc + 2` for the byte `r` that was drawn. -/
def State.writeMasked (s : State) (x : Nibble) (r nn : Byte) : State := s.writeResult x (r &&& nn)

/-- CXNN (R121): `r <- draw RANDOM`, a free value (log entry 5). -/
def execRnd (x : Nibble) (nn : Byte) (s : State) : Result :=
  .next ((s.setDraws (s.draws + 1)).writeMasked x (Config.randomByte s.draws) nn)

end Sys2Proof.Machine
end

