-- ==== Sys2Proof/Machine/Timers.lean ====
section
/-! DEFINITION. The timers: FX07, FX15, FX18 and the Timer/Audio Driver (`45_timers.md`). -/

namespace Sys2Proof.Machine

/-- FX07 (R160): `V[x] <- DT`. -/
def execLdVxDT (x : Nibble) (s : State) : Result := .next (s.setReg x s.DT).advance

/-- FX15 (R161): `DT <- vx`. -/
def execLdDTVx (x : Nibble) (s : State) : Result := .next (s.setDT (s.reg x)).advance

/-- FX18 (R162): `ST <- vx`. -/
def execLdSTVx (x : Nibble) (s : State) : Result := .next (s.setST (s.reg x)).advance

/-- A timer's decrement, floored at 0 (R163). -/
def countDown (v : Byte) : Byte := if v = 0 then 0 else v - 1

/-- The pulses of a timer phase that finds the sound timer at `st` (R163 to R166): BeepTrigger with its audible bit
when st > 0, then TimerElapsed when the decrement makes it 0. -/
def timerOutputs (st : Byte) (mute : Bool) : List Output :=
  if st = 0 then []
  else [.beepTrigger, .audible (!mute)] ++ (if countDown st = 0 then [.timerElapsed] else [])

/-- `TimerPhase()` (R163). -/
def State.timerPhase (s : State) : State :=
  ((s.setOut (s.out ++ timerOutputs s.ST s.mute)).setDT (countDown s.DT)).setST (countDown s.ST)

end Sys2Proof.Machine
end

