-- ==== Sys2Proof/Machine/Scheduler.lean ====
section
/-! DEFINITION. The Execution Scheduler's ends of a tick and the host's operations (`47_scheduler_host.md`,
`70_reset_and_hazards.md` R231, `20_memory.md` R65). The instruction part of a tick is in `Cycle.lean`. -/

namespace Sys2Proof.Machine

/-- `render()` (`44_display.md` R143): the framebuffer as it stands, given to the pixel surface; no state changes. -/
def State.render (s : State) : State := s.setOut (s.out ++ [.frame s.FB])

/-- The end of every tick (R191): `TimerPhase(); render()`. -/
def State.finishTick (s : State) : State := s.timerPhase.render.setPhase .between

/-- The start of a tick (R191): with a fault recorded no instruction part at all; waiting, the poll and no cycle
(R192); else a batch of BATCH cycles. -/
def State.beginTick (s : State) : State :=
  match s.fault, s.wait with
  | some _, _ => s.setPhase .finish
  | none, .waiting _ => s.poll.setPhase .finish
  | none, .idle => s.setPhase (.batch Config.batchSize)

/-- `start()` (R194): when stopped, arm the scheduler and run a tick at once; when running, nothing. -/
def State.start (s : State) : State := if s.running then s else (s.setRunning true).beginTick

/-- `stop()` (R195). -/
def State.stop (s : State) : State := s.setRunning false

/-- The tick strobe (R190): a tick runs only while `running`. -/
def State.strobe (s : State) : State := if s.running then s.beginTick else s

/-- `toggleMute()` (R199), which returns the new value. -/
def State.toggleMute (s : State) : State := (s.setMute (!s.mute)).setOut (s.out ++ [.muteState (!s.mute)])

/-- `loadBuffer(bytes)` (`20_memory.md` R65): copied to PROG_BASE on, or refused whole when it does not fit. -/
def State.loadBuffer (s : State) (bytes : List Byte) : State :=
  if Config.progBase + bytes.length ≤ Config.memSize then
    s.setMem (Memory.setAll s.config.font s.mem Config.progBase bytes)
  else s

/-- `Reset()` (`70_reset_and_hazards.md` R231). Memory with nothing listed is zero with FONT in its region; `running`
and `mute` are not changed, nor are the model's own fields (log entry 7). -/
def State.hostReset (s : State) : State :=
  { s with
    mem := []
    V := Vector.replicate 16 0
    pc := 0x0200
    I := 0x0000
    stack := []
    DT := 0
    ST := 0
    wait := .idle
    marker := none
    keys := Vector.replicate 16 false
    FB := Framebuffer.blank
    fault := none }

/-- One host event, atomic and between ticks (R197). -/
def State.takeEvent (s : State) : HostEvent → State
  | .tick => s.strobe
  | .start => s.start
  | .stop => s.stop
  | .reset => s.hostReset
  | .loadBuffer bytes => s.loadBuffer bytes
  | .toggleMute => s.toggleMute
  | .keyDown k => s.keyDown k
  | .keyUp k => s.keyUp k

/-- Between ticks: the next host event, in the host's order; with none pending, the next tick while `running`, and no
change while stopped (R190, R195, R197; log entry 9). -/
def State.betweenTicks (s : State) : State :=
  match s.inputs with
  | e :: es => (s.setInputs es).takeEvent e
  | [] => s.strobe

end Sys2Proof.Machine
end

