-- ==== Sys2Proof/Machine/Cycle.lean ====
section
/-! DEFINITION. The instruction cycle (`40_cycle.md`), the batch step by step, and the whole tick as the one
procedure of `47_scheduler_host.md` R191. -/

namespace Sys2Proof.Machine

/-- `Cycle()` (`40_cycle.md` R96): fetch, decode, execute. An illegal word raises IllegalInstruction (R94). -/
def cycle (s : State) : Result :=
  match decode s.fetchWord with
  | .error _ => .next (s.raise .illegalInstruction s.fetchWord)
  | .ok i => exec i s

/-- The batch after a cycle that began with `left` cycles to run: over after the last one, after an FX0A and after a
fault (`47_scheduler_host.md` R193). -/
def State.afterCycle (s : State) (left : Nat) : State :=
  s.setPhase (if left ≤ 1 ∨ s.wait ≠ .idle ∨ s.fault ≠ none then .finish else .batch (left - 1))

/-- One cycle of the batch. A cycle runs only while `wait` is Idle and `fault` is none (`40_cycle.md` R90). -/
def batchStep (left : Nat) (s : State) : Result :=
  if left = 0 ∨ s.wait ≠ .idle ∨ s.fault ≠ none then .next (s.setPhase .finish)
  else
    match cycle s with
    | .next t => .next (t.afterCycle left)
    | .fault r => .fault r
    | .refused r => .refused r

/-- "repeat BATCH times: Cycle(); if wait != Idle or fault != none: exit repeat" (R191), `n` cycles at most. -/
def runBatch : Nat → State → Result
  | 0, s => .next s
  | n + 1, s =>
    match cycle s with
    | .next t => if t.wait ≠ .idle ∨ t.fault ≠ none then .next t else runBatch n t
    | .fault r => .fault r
    | .refused r => .refused r

/-- The instruction part of a tick (R191). -/
def instructionPart (s : State) : Result :=
  match s.fault, s.wait with
  | some _, _ => .next s
  | none, .waiting _ => .next s.poll
  | none, .idle => runBatch Config.batchSize s

/-- `Tick()` (R191) as one procedure, its outputs in `out`. `step` reaches the same state one cycle at a time. -/
def tick (s : State) : Result :=
  match instructionPart (s.setOut []) with
  | .next t => .next t.finishTick
  | .fault r => .fault r
  | .refused r => .refused r

/-- The address at which an instruction word is placed for the next fetch: pc, or PROG_BASE where two bytes at pc do
not fit in memory. -/
def State.placeAt (s : State) : Word := if s.pc.toNat + 1 < Config.memSize then s.pc else 0x0200

/-- `s` inside a batch, with the word `op` stored where the next cycle fetches (log entry 11). -/
def State.readyToRun (s : State) (op : Word) : State :=
  { s with
    mem := Memory.setAll s.config.font s.mem s.placeAt.toNat (bytesOfWord op)
    pc := s.placeAt
    wait := .idle
    fault := none
    running := true
    phase := .batch Config.batchSize }

end Sys2Proof.Machine
end

