-- ==== Sys2Proof/Machine/Step.lean ====
section
/-! DEFINITION. One step of the block: a host event or the start of a tick, one instruction cycle of a batch, or the
end of a tick (log entry 8). -/

namespace Sys2Proof.Machine

/-- One step. The outputs of the step before are gone; those of this step are in `out` (log entry 10). -/
def step (s : State) : Host.Outcome State Fault Refusal :=
  match s.phase with
  | .between => .next (s.setOut []).betweenTicks
  | .batch left => batchStep left (s.setOut [])
  | .finish => .next (s.setOut []).finishTick

/-- `s` with the instruction of a table word placed so that the next step fetches and runs it (log entry 11). -/
def State.withFetchWord (s : State) (nbits w : Nat) : State := s.readyToRun (tableWord nbits w)

end Sys2Proof.Machine
end

