-- ==== Sys2Proof/Safety.lean ====
section
/-! DEFINITION. The terms in which claims are made: the reset values, the end of a run, the invariant that rules out
states no run reaches, and what an instruction leaves unchanged. -/

namespace Sys2Proof.Machine

/-- The table of `10_state.md` R37: what construction and every reset leave, `running` and `mute` apart. -/
structure ResetValues (s : State) : Prop where
  font : ∀ (d : Fin 16) (r : Fin 5), s.byteAt (0x050 + 5 * d.val + r.val) = s.config.font[d.val][r.val]
  zero : ∀ a, a < 0x050 ∨ 0x0A0 ≤ a → s.byteAt a = 0x00
  V : ∀ k, s.reg k = 0x00
  I : s.I = 0x0000
  pc : s.pc = 0x0200
  stack : s.stack = []
  timers : s.DT = 0x00 ∧ s.ST = 0x00
  keys : ∀ k, s.key k = false
  wait : s.wait = .idle
  marker : s.marker = none
  FB : ∀ x y, Framebuffer.pixel s.FB x y = false
  fault : s.fault = none

/-- A failed run: a fault is recorded, and no later step but a reset repairs it (`60_exceptions.md` R213). -/
abbrev State.failed (s : State) : Prop := s.fault ≠ none

/-- The idle loop of `47_scheduler_host.md` R201 (3): at a tick boundary, a jump to itself at pc. -/
abbrev State.idleLoop (s : State) : Prop :=
  s.phase = .between ∧ s.pc.toNat ≤ 0xFFF ∧ s.fetchWord = 0x1000 ||| s.pc ∧ s.wait = .idle ∧ s.fault = none

/-- Between ticks, what comes next is a tick, and `es` is pending after it: the scheduler's own, with no host event
pending, or a strobe the host delivers (`47_scheduler_host.md` R190, R200; log entry 9). -/
abbrev State.tickDue (s : State) (es : List HostEvent) : Prop :=
  s.phase = .between ∧ (s.inputs = [] ∧ es = [] ∨ s.inputs = .tick :: es)

/-- A run is over (R201): failed, stopped by the host, or in an idle loop. The block itself goes on.
DESIGN CHOICE: R201 says "the host stops it" and leaves open whether a block that was constructed and never started
counts; here `running = false` at a tick boundary is enough, so `State.reset` counts as over before any start()
(log entry 21). -/
abbrev State.runOver (s : State) : Prop :=
  s.phase = .between ∧ (s.failed ∨ s.running = false ∨ s.idleLoop)

/-- The invariant of the block: what every step keeps and `State.reset` has. -/
structure State.Inv (s : State) : Prop where
  /-- Memory is in its canonical form, inside the 4096 bytes. -/
  memory : Memory.wf s.config.font s.mem
  /-- At most STACK_DEPTH entries (`10_state.md` R24). -/
  stackDepth : s.stack.length ≤ 16
  /-- "Every pushed value is the address of a 2NNN instruction, so it is at most 0xFFF" (R24). -/
  stackEntries : ∀ a ∈ s.stack, a.toNat ≤ 0xFFF
  /-- "the largest value any rule can give it is 0x10FE" (R22). -/
  pcBound : s.pc.toNat ≤ 0x10FE
  /-- A waiting block's pc is the address of its FX0A (`46_keys.md` R178), which lies in memory. -/
  waitPc : s.wait ≠ .idle → s.pc.toNat ≤ 0xFFF
  /-- A tick is under way only while the scheduler is armed (`47_scheduler_host.md` R190). -/
  tickRunning : s.phase ≠ .between → s.running = true
  /-- Inside a batch 1 to BATCH cycles remain, `wait` is Idle and no fault is recorded (R191, R193). -/
  batchOpen : ∀ left, s.phase = .batch left → 1 ≤ left ∧ left ≤ 8 ∧ s.wait = .idle ∧ s.fault = none
  /-- A faulted block is not waiting: nothing executes after the fault (`60_exceptions.md` R213). -/
  faultIdle : s.fault ≠ none → s.wait = .idle
  /-- pc stays at the faulting instruction (R212). -/
  faultPc : ∀ f, s.fault = some f → f.pc = s.pc
  /-- The two pixel colours differ (`44_display.md` R148). -/
  colours : s.config.wf

/-! ### Frames -/

/-- Every byte of memory reads as before. -/
def SameBytes (s t : State) : Prop := ∀ a, t.byteAt a = s.byteAt a

/-- Every byte of memory outside the `n` bytes from `a` on reads as before. -/
def SameBytesOutside (s t : State) (a n : Nat) : Prop := ∀ b, b < a ∨ a + n ≤ b → t.byteAt b = s.byteAt b

/-- From `s` to `t`, register x takes the value v and pc advances by 2, and nothing else changes: no other register,
VF included unless it is x, no byte of memory, no other field. -/
structure WritesReg (s t : State) (x : Nibble) (v : Byte) : Prop where
  result : t.reg x = v
  others : ∀ k, k ≠ x → t.reg k = s.reg k
  pc : t.pc = s.pc + 2
  memory : SameBytes s t
  frame : t = { s with V := t.V, pc := t.pc }

/-- From `s` to `t`, register x takes the value v, then VF the flag, and pc advances by 2, and nothing else changes.
Where x is VF the flag is its final value (`10_state.md` R26). -/
structure WritesRegFlag (s t : State) (x : Nibble) (v : Byte) (flag : Bool) : Prop where
  flag : t.reg 0xF = if flag then 1 else 0
  result : x ≠ 0xF → t.reg x = v
  others : ∀ k, k ≠ x → k ≠ 0xF → t.reg k = s.reg k
  pc : t.pc = s.pc + 2
  memory : SameBytes s t
  frame : t = { s with V := t.V, pc := t.pc }

/-- From `s` to `t` only pc changes, to `target`. -/
structure SetsPc (s t : State) (target : Word) : Prop where
  pc : t.pc = target
  regs : ∀ k, t.reg k = s.reg k
  memory : SameBytes s t
  frame : t = { s with pc := t.pc }

/-- From `s` to `t` the fault `code` of the instruction `i` is recorded and nothing else changes
(`60_exceptions.md` R212). -/
structure Faults (s t : State) (code : FaultCode) (i : Instr) : Prop where
  fault : t.fault = some ⟨code, s.pc, encode i⟩
  regs : ∀ k, t.reg k = s.reg k
  memory : SameBytes s t
  frame : t = { s with fault := t.fault }

/-- The pixels a sprite sets, in the order DXYN processes them (`44_display.md` R146): row by row, and in a row from
the most significant bit of its byte on; only those on the screen. Written from the rule, not from the machine's loop. -/
def spritePixels (x0 y0 : Nat) (bs : List Byte) : List (Nat × Nat) :=
  (List.range bs.length).flatMap fun r =>
    ((List.range 8).filter fun c => (bs[r]?.getD 0).getLsbD (7 - c) && decide (x0 + c < 64 ∧ y0 + r < 32)).map
      fun c => (x0 + c, y0 + r)

end Sys2Proof.Machine
end

