-- ==== Sys2Proof/Certificates/Slice0/Obligations.lean ====
section
/-! DEFINITION. The statements about the block, for the provers. Each docstring names the rule of `spec/` it states.
The terms `WritesReg`, `WritesRegFlag`, `SetsPc`, `Faults`, `SameBytes`, `ResetValues`, `spritePixels` and `State.Inv`
are in `Safety.lean`. -/

open Sys2Proof Sys2Proof.Machine

/-! ### Encoding -/

/-- Words written out bit by bit from the patterns of `30_encoding.md` R76 decode to the instructions they stand for,
one at least of every family. -/
def Obligations.WordsWrittenOutDecode : Prop :=
  decode 0b0000000011100000 = .ok .cls ∧
  decode 0b0000000011101110 = .ok .ret ∧
  decode 0b0001001000110100 = .ok (.jp 0x234) ∧
  decode 0b0110101001000010 = .ok (.ldImm 0xA 0x42) ∧
  decode 0b1000000100100100 = .ok (.addReg 0x1 0x2) ∧
  decode 0b1000000100101110 = .ok (.shlReg 0x1 0x2) ∧
  decode 0b1010001011110000 = .ok (.ldI 0x2F0) ∧
  decode 0b1101000100100011 = .ok (.drw 0x1 0x2 0x3) ∧
  decode 0b1110010110011110 = .ok (.skp 0x5) ∧
  decode 0b1111001100001010 = .ok (.ldVxK 0x3) ∧
  decode 0b1111001100010101 = .ok (.ldDTVx 0x3) ∧
  decode 0b1111001101010101 = .ok (.storeRegs 0x3)

/-- Decode and encode agree: every instruction, with every operand at every value, decodes from its own word. -/
def Obligations.DecodeOfEncodeIsTheInstruction : Prop := ∀ i : Instr, decode (encode i) = .ok i

/-- The other direction: a word that decodes is the word of what it decodes to, so the decoder drops no bit. Rests on:
the low nibble of 5XYn and 9XYn, which R77 does not examine, is kept in the instruction (log entry 13). -/
def Obligations.EncodeOfDecodeIsTheWord : Prop := ∀ (w : Word) (i : Instr), decode w = .ok i → encode i = w

/-- R76: a word matches a row of the opcode map exactly when it decodes to an instruction of that row; the rows do not
overlap; a word that matches no row is illegal. -/
def Obligations.DecoderSelectsTheMatchingRow : Prop :=
  ∀ w : Word,
    (∀ r ∈ opcodeMap, (w &&& r.mask = r.value ↔ ∃ i, decode w = .ok i ∧ i.mnemonic = r.pattern)) ∧
    (∀ r ∈ opcodeMap, ∀ q ∈ opcodeMap, w &&& r.mask = r.value → w &&& q.mask = q.value → r = q) ∧
    ((∀ r ∈ opcodeMap, w &&& r.mask ≠ r.value) → ∃ e, decode w = .error e)

/-- R78, R80: the words that do not decode are exactly the four families listed, and they are the words that match no
row. Rests on: class 0 is decoded on the whole word by the spec's own decision D4. -/
def Obligations.IllegalWordsAreTheFourFamilies : Prop :=
  ∀ w : Word,
    ((∀ i, decode w ≠ .ok i) ↔
      (w.extractLsb' 12 4 = 0x0 ∧ w ≠ 0x00E0 ∧ w ≠ 0x00EE) ∨
      (w.extractLsb' 12 4 = 0x8 ∧
        w.extractLsb' 0 4 ∈ ([0x8, 0x9, 0xA, 0xB, 0xC, 0xD, 0xF] : List Nibble)) ∨
      (w.extractLsb' 12 4 = 0xE ∧ w.extractLsb' 0 8 ∉ ([0x9E, 0xA1] : List Byte)) ∨
      (w.extractLsb' 12 4 = 0xF ∧
        w.extractLsb' 0 8 ∉ ([0x07, 0x0A, 0x15, 0x18, 0x1E, 0x29, 0x33, 0x55, 0x65] : List Byte))) ∧
    ((∀ i, decode w ≠ .ok i) ↔ ∀ r ∈ opcodeMap, w &&& r.mask ≠ r.value)

/-! ### Fetch and step -/

/-- R54: the opcode word is big-endian, bytes past 0xFFF read as 0. -/
def Obligations.FetchIsBigEndianAndZeroPastMemory : Prop :=
  ∀ s : State,
    (s.pc.toNat < 0xFFF → s.fetchWord.toNat = (s.byteAt s.pc.toNat).toNat * 256 + (s.byteAt (s.pc.toNat + 1)).toNat) ∧
    (s.pc.toNat = 0xFFF → s.fetchWord.toNat = (s.byteAt 0xFFF).toNat * 256) ∧
    (0x1000 ≤ s.pc.toNat → s.fetchWord = 0x0000)

/-- R90, R96, R193: inside a batch a step is `exec` of the decoded instruction at the state (its outputs empty), after
which the batch is over when it was the last cycle, when the instruction began a wait, or when it raised a fault.
Rests on: one instruction a step and outputs of one step are the model's (log entries 8 and 10); that a fault ends the
batch is the spec's own decision D21. -/
def Obligations.StepRunsTheDecodedInstruction : Prop :=
  ∀ (s : State) (left : Nat) (i : Instr),
    s.phase = .batch (left + 1) → s.wait = .idle → s.fault = none → decode s.fetchWord = .ok i →
    step s =
      match exec i { s with out := [] } with
      | .next t =>
        .next { t with phase := if left = 0 ∨ t.wait ≠ .idle ∨ t.fault ≠ none then .finish else .batch left }
      | .fault r => .fault r
      | .refused r => .refused r

/-- R94, R212: a word that does not decode raises IllegalInstruction: the record is written with the instruction's own
address and word, the fault port gives code 1 with them (R210), nothing else of the machine changes, and the batch ends.
Rests on: the fault is the spec's own decision D3 and its number D21; the phase and the outputs are the model's (log
entries 8 and 10). -/
def Obligations.StepRaisesIllegalInstruction : Prop :=
  ∀ (s : State) (left : Nat) (e : DecodeReject),
    s.phase = .batch (left + 1) → s.wait = .idle → s.fault = none → decode s.fetchWord = .error e →
    ∃ t, step s = .next t ∧ t.faultPort = (1, s.pc, s.fetchWord) ∧
      t = { s with out := [], fault := some ⟨.illegalInstruction, s.pc, s.fetchWord⟩, phase := .finish }

/-- R79: a program whose pc reaches 0x1000 or more raises IllegalInstruction at its next fetch, with op 0x0000. Rests
on: R79 is the spec's own derivation and the fault its decision D3; the phase and the outputs are the model's (log
entries 8 and 10). Rests on: R79 is the spec's own derivation and the fault its decision D3; the phase and the outputs
are the model's (log entries 8 and 10). -/
def Obligations.RunningOffTheEndRaisesIllegalInstruction : Prop :=
  ∀ (s : State) (left : Nat),
    s.phase = .batch (left + 1) → s.wait = .idle → s.fault = none → 0x1000 ≤ s.pc.toNat →
    step s = .next { s with
      out := [], fault := some ⟨.illegalInstruction, s.pc, 0x0000⟩, phase := .finish }

/-- R63: a byte stored in memory is the byte the next fetch at its address reads. Rests on: R63 is the spec's own
derivation from R54, R57 and R61. -/
def Obligations.StoredBytesAreFetchedNext : Prop :=
  ∀ (s t : State) (a : Nat) (bs : List Byte) (j : Nat),
    Memory.wf s.config.font s.mem → s.memWrite a bs = some t → (h : j < bs.length) → t.fetchByte (a + j) = bs[j]

/-! ### Registers and arithmetic -/

/-- R110, R111, R112: load immediate, add immediate modulo 256 with no flag, copy. -/
def Obligations.LoadsAndImmediateAdd : Prop :=
  ∀ (s : State) (x y : Nibble) (nn : Byte),
    (decode (encodeImm 0x6 x nn) = .ok (.ldImm x nn) ∧
      ∃ t, exec (.ldImm x nn) s = .next t ∧ WritesReg s t x nn) ∧
    (decode (encodeImm 0x7 x nn) = .ok (.addImm x nn) ∧
      ∃ t, exec (.addImm x nn) s = .next t ∧
        WritesReg s t x (BitVec.ofNat 8 (((s.reg x).toNat + nn.toNat) % 256))) ∧
    (decode (encodeNibbles 0x8 x y 0x0) = .ok (.ldReg x y) ∧
      ∃ t, exec (.ldReg x y) s = .next t ∧ WritesReg s t x (s.reg y))

/-- R113, R114, R115: the bitwise operations, which write VF only when X = F. -/
def Obligations.LogicOperationsLeaveVF : Prop :=
  ∀ (s : State) (x y : Nibble),
    (decode (encodeNibbles 0x8 x y 0x1) = .ok (.orReg x y) ∧
      ∃ t, exec (.orReg x y) s = .next t ∧ WritesReg s t x (s.reg x ||| s.reg y)) ∧
    (decode (encodeNibbles 0x8 x y 0x2) = .ok (.andReg x y) ∧
      ∃ t, exec (.andReg x y) s = .next t ∧ WritesReg s t x (s.reg x &&& s.reg y)) ∧
    (decode (encodeNibbles 0x8 x y 0x3) = .ok (.xorReg x y) ∧
      ∃ t, exec (.xorReg x y) s = .next t ∧ WritesReg s t x (s.reg x ^^^ s.reg y))

/-- R116: 8XY4 leaves the sum modulo 256 and then VF = 1 iff the sum of the old values is above 255. -/
def Obligations.AddSetsCarry : Prop :=
  ∀ (s : State) (x y : Nibble),
    decode (encodeNibbles 0x8 x y 0x4) = .ok (.addReg x y) ∧
    ∃ t, exec (.addReg x y) s = .next t ∧
      WritesRegFlag s t x (BitVec.ofNat 8 (((s.reg x).toNat + (s.reg y).toNat) % 256))
        (decide (255 < (s.reg x).toNat + (s.reg y).toNat))

/-- R117: 8XY5 leaves vx − vy modulo 256 and then VF = no borrow: 1 iff old VX ≥ old VY. -/
def Obligations.SubtractSetsNoBorrow : Prop :=
  ∀ (s : State) (x y : Nibble),
    decode (encodeNibbles 0x8 x y 0x5) = .ok (.subReg x y) ∧
    ∃ t, exec (.subReg x y) s = .next t ∧
      WritesRegFlag s t x (BitVec.ofNat 8 (((s.reg x).toNat + 256 - (s.reg y).toNat) % 256))
        (decide ((s.reg y).toNat ≤ (s.reg x).toNat))

/-- R119: 8XY7 leaves vy − vx modulo 256 and then VF = no borrow of the old values. That the flag compares the old
values is the spec's own decision D18. -/
def Obligations.SubtractReversedSetsNoBorrow : Prop :=
  ∀ (s : State) (x y : Nibble),
    decode (encodeNibbles 0x8 x y 0x7) = .ok (.subnReg x y) ∧
    ∃ t, exec (.subnReg x y) s = .next t ∧
      WritesRegFlag s t x (BitVec.ofNat 8 (((s.reg y).toNat + 256 - (s.reg x).toNat) % 256))
        (decide ((s.reg x).toNat ≤ (s.reg y).toNat))

/-- R118, R120: the shifts move the copy of VY just placed into VX, and then VF = the bit moved out. -/
def Obligations.ShiftsMoveTheCopyOfVY : Prop :=
  ∀ (s : State) (x y : Nibble),
    (decode (encodeNibbles 0x8 x y 0x6) = .ok (.shrReg x y) ∧
      ∃ t, exec (.shrReg x y) s = .next t ∧
        WritesRegFlag s t x (BitVec.ofNat 8 ((s.reg y).toNat / 2)) (decide ((s.reg y).toNat % 2 = 1))) ∧
    (decode (encodeNibbles 0x8 x y 0xE) = .ok (.shlReg x y) ∧
      ∃ t, exec (.shlReg x y) s = .next t ∧
        WritesRegFlag s t x (BitVec.ofNat 8 ((s.reg y).toNat * 2 % 256)) (decide (128 ≤ (s.reg y).toNat)))

/-- R121, with the byte drawn as the model's free value (log entry 5): VX takes r AND NN for that byte r, a fresh draw
each time; NN = 0 gives 0. Nothing is said of r. Rests on: the draw and its counter are the model's (log entries 5 and
7). -/
def Obligations.RandomByteIsMasked : Prop :=
  ∀ (s : State) (x : Nibble) (nn : Byte),
    decode (encodeImm 0xC x nn) = .ok (.rnd x nn) ∧
    ∃ t, exec (.rnd x nn) s = .next t ∧ t.reg x = Config.randomByte s.draws &&& nn ∧ (nn = 0 → t.reg x = 0) ∧
      (∀ k, k ≠ x → t.reg k = s.reg k) ∧ t.pc = s.pc + 2 ∧ SameBytes s t ∧
      t = { s with V := t.V, pc := t.pc, draws := s.draws + 1 }

/-! ### Control transfer -/

/-- R101, R107: the jumps; BNNN's target is the exact sum of NNN and V0. Rests on: the 16-bit pc is the spec's own
decision D1. -/
def Obligations.JumpsSetPc : Prop :=
  ∀ (s : State) (nnn : Addr12),
    (decode (encodeAddr 0x1 nnn) = .ok (.jp nnn) ∧
      ∃ t, exec (.jp nnn) s = .next t ∧ SetsPc s t (BitVec.ofNat 16 nnn.toNat)) ∧
    (decode (encodeAddr 0xB nnn) = .ok (.jpV0 nnn) ∧
      ∃ t, exec (.jpV0 nnn) s = .next t ∧ t.pc.toNat = nnn.toNat + (s.reg 0x0).toNat ∧ SetsPc s t t.pc)

/-- R102: a call pushes its own address and jumps; on a full stack it raises StackOverflow and changes nothing else.
Rests on: the depth of 16 and the fault are the spec's own decision D5. -/
def Obligations.CallPushesItsOwnAddress : Prop :=
  ∀ (s : State) (nnn : Addr12),
    decode (encodeAddr 0x2 nnn) = .ok (.call nnn) ∧
    (s.stack.length < 16 → ∃ t, exec (.call nnn) s = .next t ∧ t.stack = s.stack ++ [s.pc] ∧
      t.pc = BitVec.ofNat 16 nnn.toNat ∧ (∀ k, t.reg k = s.reg k) ∧ SameBytes s t ∧
      t = { s with stack := t.stack, pc := t.pc }) ∧
    (16 ≤ s.stack.length → ∃ t, exec (.call nnn) s = .next t ∧ Faults s t .stackOverflow (.call nnn))

/-- R100: a return pops the last entry and goes to the address 2 above it; on an empty stack it raises StackUnderflow
and changes nothing else. Rests on: the fault is the spec's own decision D6. -/
def Obligations.ReturnGoesPastTheCall : Prop :=
  decode 0x00EE = .ok .ret ∧
  ∀ s : State,
    (∀ (rest : List Word) (r : Word), s.stack = rest ++ [r] → ∃ t, exec .ret s = .next t ∧ t.stack = rest ∧
      t.pc = r + 2 ∧ (∀ k, t.reg k = s.reg k) ∧ SameBytes s t ∧ t = { s with stack := t.stack, pc := t.pc }) ∧
    (s.stack = [] → ∃ t, exec .ret s = .next t ∧ Faults s t .stackUnderflow .ret)

/-- "executing 2NNN then 00EE restores PC to exactly the address immediately following the 2NNN instruction", and all
else with it (R100, R102; `95_test_vectors.md` S7). -/
def Obligations.CallThenReturnIsTheNextInstruction : Prop :=
  ∀ (s : State) (nnn : Addr12), s.stack.length < 16 →
    ∃ t, exec (.call nnn) s = .next t ∧ exec .ret t = .next { s with pc := s.pc + 2 }

/-- R103 to R106: the four skips advance pc by 4 when their condition holds and by 2 otherwise, and change nothing
else. The low nibble of 5XYn and 9XYn is not examined (R77). Rests on: that the low nibble of 5XYn and 9XYn is not
examined is the spec's resolution C3 (log entry 14). -/
def Obligations.SkipsAdvanceByTwoOrFour : Prop :=
  ∀ (s : State) (x y n : Nibble) (nn : Byte),
    (decode (encodeImm 0x3 x nn) = .ok (.seImm x nn) ∧
      ∃ t, exec (.seImm x nn) s = .next t ∧ SetsPc s t (if s.reg x = nn then s.pc + 4 else s.pc + 2)) ∧
    (decode (encodeImm 0x4 x nn) = .ok (.sneImm x nn) ∧
      ∃ t, exec (.sneImm x nn) s = .next t ∧ SetsPc s t (if s.reg x ≠ nn then s.pc + 4 else s.pc + 2)) ∧
    (decode (encodeNibbles 0x5 x y n) = .ok (.seReg x y n) ∧
      ∃ t, exec (.seReg x y n) s = .next t ∧ SetsPc s t (if s.reg x = s.reg y then s.pc + 4 else s.pc + 2)) ∧
    (decode (encodeNibbles 0x9 x y n) = .ok (.sneReg x y n) ∧
      ∃ t, exec (.sneReg x y n) s = .next t ∧ SetsPc s t (if s.reg x ≠ s.reg y then s.pc + 4 else s.pc + 2))

/-! ### Index register and memory transfer -/

/-- R130, R133: ANNN and FX29 set I, FX29 without masking VX. -/
def Obligations.IndexLoads : Prop :=
  ∀ (s : State) (x : Nibble) (nnn : Addr12),
    (decode (encodeAddr 0xA nnn) = .ok (.ldI nnn) ∧
      ∃ t, exec (.ldI nnn) s = .next t ∧ t.I.toNat = nnn.toNat ∧ t.pc = s.pc + 2 ∧ (∀ k, t.reg k = s.reg k) ∧
        SameBytes s t ∧ t = { s with I := t.I, pc := t.pc }) ∧
    (decode (encodeImm 0xF x 0x29) = .ok (.ldF x) ∧
      ∃ t, exec (.ldF x) s = .next t ∧ t.I.toNat = 0x050 + (s.reg x).toNat * 5 ∧ t.pc = s.pc + 2 ∧
        (∀ k, t.reg k = s.reg k) ∧ SameBytes s t ∧ t = { s with I := t.I, pc := t.pc })

/-- R131: FX1E adds exactly, with no flag; a sum above 0xFFFF raises IndexOverflow before I changes. Rests on: the
16-bit I and the fault are the spec's own decision D2. -/
def Obligations.AddToIndexFaultsInsteadOfWrapping : Prop :=
  ∀ (s : State) (x : Nibble),
    decode (encodeImm 0xF x 0x1E) = .ok (.addI x) ∧
    (s.I.toNat + (s.reg x).toNat ≤ 0xFFFF →
      ∃ t, exec (.addI x) s = .next t ∧ t.I.toNat = s.I.toNat + (s.reg x).toNat ∧ t.pc = s.pc + 2 ∧
        (∀ k, t.reg k = s.reg k) ∧ SameBytes s t ∧ t = { s with I := t.I, pc := t.pc }) ∧
    (0xFFFF < s.I.toNat + (s.reg x).toNat → ∃ t, exec (.addI x) s = .next t ∧ Faults s t .indexOverflow (.addI x))

/-- R134: FX33 stores the hundreds, tens and ones of VX at I, I + 1, I + 2 and no other byte; where I + 2 is above
0xFFF it raises MemoryFault and stores nothing. Rests on: the fault is the spec's own decision D15. -/
def Obligations.DecimalDigitsAreStored : Prop :=
  ∀ (s : State) (x : Nibble), Memory.wf s.config.font s.mem →
    decode (encodeImm 0xF x 0x33) = .ok (.ldB x) ∧
    (s.I.toNat + 2 ≤ 0xFFF →
      ∃ t, exec (.ldB x) s = .next t ∧
        (t.byteAt s.I.toNat).toNat = (s.reg x).toNat / 100 ∧
        (t.byteAt (s.I.toNat + 1)).toNat = (s.reg x).toNat / 10 % 10 ∧
        (t.byteAt (s.I.toNat + 2)).toNat = (s.reg x).toNat % 10 ∧
        SameBytesOutside s t s.I.toNat 3 ∧ t.pc = s.pc + 2 ∧ (∀ k, t.reg k = s.reg k) ∧
        t = { s with mem := t.mem, pc := t.pc }) ∧
    (0xFFF < s.I.toNat + 2 → ∃ t, exec (.ldB x) s = .next t ∧ Faults s t .memoryFault (.ldB x))

/-- R135: FX55 stores V0 to VX from I on and no other byte, and leaves I; where I + X is above 0xFFF it raises
MemoryFault and stores nothing. Rests on: the fault and that I is unchanged are the spec's own decisions D15 and D19.
-/
def Obligations.RegistersAreStored : Prop :=
  ∀ (s : State) (x : Nibble), Memory.wf s.config.font s.mem →
    decode (encodeImm 0xF x 0x55) = .ok (.storeRegs x) ∧
    (s.I.toNat + x.toNat ≤ 0xFFF →
      ∃ t, exec (.storeRegs x) s = .next t ∧
        (∀ k : Nibble, k.toNat ≤ x.toNat → t.byteAt (s.I.toNat + k.toNat) = s.reg k) ∧
        SameBytesOutside s t s.I.toNat (x.toNat + 1) ∧ t.pc = s.pc + 2 ∧ (∀ k, t.reg k = s.reg k) ∧
        t = { s with mem := t.mem, pc := t.pc }) ∧
    (0xFFF < s.I.toNat + x.toNat → ∃ t, exec (.storeRegs x) s = .next t ∧ Faults s t .memoryFault (.storeRegs x))

/-- R136: FX65 loads V0 to VX from I on, leaves the registers above X and I; where I + X is above 0xFFF it raises
MemoryFault and loads nothing. Rests on: the fault and that I is unchanged are the spec's own decisions D15 and D19.
-/
def Obligations.RegistersAreLoaded : Prop :=
  ∀ (s : State) (x : Nibble),
    decode (encodeImm 0xF x 0x65) = .ok (.loadRegs x) ∧
    (s.I.toNat + x.toNat ≤ 0xFFF →
      ∃ t, exec (.loadRegs x) s = .next t ∧
        (∀ k : Nibble, k.toNat ≤ x.toNat → t.reg k = s.byteAt (s.I.toNat + k.toNat)) ∧
        (∀ k : Nibble, x.toNat < k.toNat → t.reg k = s.reg k) ∧ t.pc = s.pc + 2 ∧ SameBytes s t ∧
        t = { s with V := t.V, pc := t.pc }) ∧
    (0xFFF < s.I.toNat + x.toNat → ∃ t, exec (.loadRegs x) s = .next t ∧ Faults s t .memoryFault (.loadRegs x))

/-- "store V0..V3 to memory at I, zero the registers, load back — registers equal original values", for every X: after
FX55, from any state with the same memory and I, FX65 gives V0..VX back (R135, R136; `95_test_vectors.md` S8). -/
def Obligations.StoreThenLoadRestoresRegisters : Prop :=
  ∀ (s t u : State) (x : Nibble), Memory.wf s.config.font s.mem → s.I.toNat + x.toNat ≤ 0xFFF →
    exec (.storeRegs x) s = .next t → u.mem = t.mem → u.config = t.config → u.I = t.I →
    ∃ v, exec (.loadRegs x) u = .next v ∧ ∀ k : Nibble, k.toNat ≤ x.toNat → v.reg k = s.reg k

/-! ### Display -/

/-- R145, R141: 00E0 turns every pixel off and changes nothing else. -/
def Obligations.ClearTurnsEveryPixelOff : Prop :=
  decode 0x00E0 = .ok .cls ∧
  ∀ s : State, ∃ t, exec .cls s = .next t ∧ (∀ x y, Framebuffer.pixel t.FB x y = false) ∧ t.pc = s.pc + 2 ∧
    (∀ k, t.reg k = s.reg k) ∧ SameBytes s t ∧ t = { s with FB := t.FB, pc := t.pc }

/-- R146: DXYN inverts exactly the on-screen pixels of the sprite's set bits, and writes no register but VF; where a
sprite byte lies above 0xFFF it raises MemoryFault and changes nothing else. Rests on: clipping of set bits and the
fault are the spec's own decisions D8 and D15. -/
def Obligations.DrawInvertsTheSpritePixels : Prop :=
  ∀ (s : State) (x y n : Nibble),
    decode (encodeNibbles 0xD x y n) = .ok (.drw x y n) ∧
    (n.toNat = 0 ∨ s.I.toNat + n.toNat ≤ 0x1000 →
      ∃ t, exec (.drw x y n) s = .next t ∧
        (∀ px py, px < 64 → py < 32 → Framebuffer.pixel t.FB px py =
          (Framebuffer.pixel s.FB px py ^^ decide ((px, py) ∈ spritePixels ((s.reg x).toNat % 64)
            ((s.reg y).toNat % 32) ((List.range n.toNat).map fun r => s.byteAt (s.I.toNat + r))))) ∧
        (∀ k, k ≠ 0xF → t.reg k = s.reg k) ∧ t.pc = s.pc + 2 ∧ SameBytes s t ∧
        t = { s with V := t.V, FB := t.FB, pc := t.pc }) ∧
    (0 < n.toNat → 0x1000 < s.I.toNat + n.toNat →
      ∃ t, exec (.drw x y n) s = .next t ∧ Faults s t .memoryFault (.drw x y n))

/-- R146, R147: VF after DXYN. In LAST_BIT it is the old state of the last on-screen set bit's pixel, unchanged where
there is none; in ANY_BIT it is 1 when any of those pixels was on and 0 otherwise. Rests on: COLLISION_MODE and the
clipped bits are the spec's own decisions D7 and D8. -/
def Obligations.DrawSetsTheCollisionFlag : Prop :=
  ∀ (s t : State) (x y n : Nibble) (ps : List (Nat × Nat)),
    n.toNat = 0 ∨ s.I.toNat + n.toNat ≤ 0x1000 → exec (.drw x y n) s = .next t →
    ps = spritePixels ((s.reg x).toNat % 64) ((s.reg y).toNat % 32)
      ((List.range n.toNat).map fun r => s.byteAt (s.I.toNat + r)) →
    (s.config.collisionMode = .lastBit → ps = [] → t.reg 0xF = s.reg 0xF) ∧
    (s.config.collisionMode = .lastBit → ∀ (init : List (Nat × Nat)) (p : Nat × Nat), ps = init ++ [p] →
      t.reg 0xF = if Framebuffer.pixel s.FB p.1 p.2 then 1 else 0) ∧
    (s.config.collisionMode = .anyBit →
      t.reg 0xF = if ps.any (fun p => Framebuffer.pixel s.FB p.1 p.2) then 1 else 0)

/-- R146: "drawing the same sprite twice at the same place restores the framebuffer". X and Y name the place again, so
they are not VF, which the first draw writes. -/
def Obligations.DrawingTwiceRestoresTheFramebuffer : Prop :=
  ∀ (s t : State) (x y n : Nibble), x ≠ 0xF → y ≠ 0xF → n.toNat = 0 ∨ s.I.toNat + n.toNat ≤ 0x1000 →
    exec (.drw x y n) s = .next t → ∃ u, exec (.drw x y n) t = .next u ∧ u.FB = s.FB

/-- R148: the render output has 8192 bytes, pixel (x, y) at bytes 4·(64·y + x) on. Rests on: the row-major layout is
the spec's own decision D24. -/
def Obligations.RenderOutputIsRowMajor : Prop :=
  ∀ (c : Config) (fb : Framebuffer), (renderBytes c fb).length = 8192 ∧
    ∀ (x y : Nat) (j : Fin 4), x < 64 → y < 32 →
      (renderBytes c fb)[4 * (64 * y + x) + j.val]? =
        some (if Framebuffer.pixel fb x y then c.renderOn[j.val] else c.renderOff[j.val])

/-! ### Timers and keys -/

/-- R160, R161, R162: the timer instructions. -/
def Obligations.TimerInstructionsMoveOneByte : Prop :=
  ∀ (s : State) (x : Nibble),
    (decode (encodeImm 0xF x 0x07) = .ok (.ldVxDT x) ∧
      ∃ t, exec (.ldVxDT x) s = .next t ∧ WritesReg s t x s.DT) ∧
    (decode (encodeImm 0xF x 0x15) = .ok (.ldDTVx x) ∧
      ∃ t, exec (.ldDTVx x) s = .next t ∧ t.DT = s.reg x ∧ t.pc = s.pc + 2 ∧ (∀ k, t.reg k = s.reg k) ∧
        SameBytes s t ∧ t = { s with DT := t.DT, pc := t.pc }) ∧
    (decode (encodeImm 0xF x 0x18) = .ok (.ldSTVx x) ∧
      ∃ t, exec (.ldSTVx x) s = .next t ∧ t.ST = s.reg x ∧ t.pc = s.pc + 2 ∧ (∀ k, t.reg k = s.reg k) ∧
        SameBytes s t ∧ t = { s with ST := t.ST, pc := t.pc })

/-- R175, R176, R174: the key tests skip on the state of the key numbered VX; a VX above 0xF stalls or advances by 2,
as the policy says. Nothing but pc changes. Rests on: the policy and the key numbers are the spec's own decisions D9
and D14. -/
def Obligations.KeyTestsSkipOrStall : Prop :=
  ∀ (s : State) (x : Nibble),
    decode (encodeImm 0xE x 0x9E) = .ok (.skp x) ∧ decode (encodeImm 0xE x 0xA1) = .ok (.sknp x) ∧
    (∀ k : Nibble, (s.reg x).toNat = k.toNat →
      (∃ t, exec (.skp x) s = .next t ∧ SetsPc s t (if s.key k then s.pc + 4 else s.pc + 2)) ∧
      (∃ t, exec (.sknp x) s = .next t ∧ SetsPc s t (if s.key k then s.pc + 2 else s.pc + 4))) ∧
    (0x10 ≤ (s.reg x).toNat → s.config.unmappedKeyPolicy = .stall →
      exec (.skp x) s = .next s ∧ exec (.sknp x) s = .next s) ∧
    (0x10 ≤ (s.reg x).toNat → s.config.unmappedKeyPolicy = .advance →
      (∃ t, exec (.skp x) s = .next t ∧ SetsPc s t (s.pc + 2)) ∧
      (∃ t, exec (.sknp x) s = .next t ∧ SetsPc s t (s.pc + 2)))

/-- R177: FX0A begins the wait for its register, clears the marker and leaves pc and all else. -/
def Obligations.KeyWaitSuspends : Prop :=
  ∀ (s : State) (x : Nibble),
    decode (encodeImm 0xF x 0x0A) = .ok (.ldVxK x) ∧
    exec (.ldVxK x) s = .next { s with wait := .waiting x, marker := none }

/-- R171: KeyDown(k) presses key k and sets the marker, and changes nothing else. Rests on: that KeyDown sets the
marker is the spec's own decision D13; the queue of events is the model's (log entry 9). -/
def Obligations.KeyDownPressesAndMarks : Prop :=
  ∀ (s : State) (k : Nibble) (es : List HostEvent), s.phase = .between → s.inputs = .keyDown k :: es →
    ∃ t, step s = .next t ∧ t.key k = true ∧ (∀ j, j ≠ k → t.key j = s.key j) ∧
      t = { s with keys := t.keys, marker := some k, inputs := es, out := [] }

/-- R172, R178, R180: KeyUp(k) releases key k; where the block waits for register r and the marker is k, it resolves
the wait: V[r] takes k, pc advances by 2, `wait` and `marker` are cleared. Rests on: that a resolution clears the
marker is the spec's own decision D13; the queue of events is the model's (log entry 9). -/
def Obligations.KeyUpReleasesAndResolves : Prop :=
  ∀ (s : State) (k : Nibble) (es : List HostEvent), s.phase = .between → s.inputs = .keyUp k :: es →
    (∀ r, s.wait = .waiting r → s.marker = some k →
      ∃ t, step s = .next t ∧ t.key k = false ∧ (∀ j, j ≠ k → t.key j = s.key j) ∧
        (t.reg r).toNat = k.toNat ∧ (∀ j, j ≠ r → t.reg j = s.reg j) ∧
        t = { s with
          keys := t.keys, V := t.V, pc := s.pc + 2, wait := .idle, marker := none, inputs := es, out := [] }) ∧
    (s.wait = .idle ∨ s.marker ≠ some k →
      ∃ t, step s = .next t ∧ t.key k = false ∧ (∀ j, j ≠ k → t.key j = s.key j) ∧
        t = { s with keys := t.keys, inputs := es, out := [] })

/-- A press and a release during a wait resolve it: "a matching key-release event supplies VX and advances PC by
exactly 2, exactly once" (R177, R180; `95_test_vectors.md` S10). A second release changes only the queue. Rests on:
the marker is the spec's own decision D13; the queue of events is the model's (log entry 9). -/
def Obligations.PressAndReleaseResolveTheWaitOnce : Prop :=
  ∀ (s : State) (r k : Nibble) (es : List HostEvent), s.phase = .between → s.wait = .waiting r →
    s.inputs = .keyDown k :: .keyUp k :: .keyUp k :: es →
    ∃ t u v, step s = .next t ∧ t.wait = .waiting r ∧ t.pc = s.pc ∧ step t = .next u ∧ u.wait = .idle ∧
      (u.reg r).toNat = k.toNat ∧ u.pc = s.pc + 2 ∧ u.marker = none ∧ step u = .next v ∧
      v = { u with inputs := es, out := [] }

/-! ### Ticks and the host -/

/-- R190, R191, R192: how a tick starts in a running block, with no host event pending or with a delivered tick strobe
first: with a fault recorded there is no instruction part; idle, a batch of 8 cycles; waiting with no key pressed, zero
cycles. Rests on: the fault test and the place of the poll are the spec's own decisions D21 and D12; the phases and the
queue are the model's (log entries 8 and 9). -/
def Obligations.TickStartsByFaultAndWait : Prop :=
  ∀ (s : State) (es : List HostEvent), s.tickDue es → s.running = true →
    (s.fault ≠ none → step s = .next { s with inputs := es, out := [], phase := .finish }) ∧
    (s.fault = none → s.wait = .idle → step s = .next { s with inputs := es, out := [], phase := .batch 8 }) ∧
    (∀ r, s.fault = none → s.wait = .waiting r → (∀ k, s.key k = false) →
      step s = .next { s with inputs := es, out := [], phase := .finish })

/-- R181, R192: a tick that starts waiting with a key pressed, with no host event pending or with a delivered tick strobe
first, resolves the wait with some pressed key and runs no instruction. Which pressed key is the model's free value (log
entry 6), of which nothing is said. Rests on: the choice among pressed keys is the model's free value (log entry 6); the
place of the poll is the spec's own decision D12; the phases and the queue are the model's (log entries 8 and 9). -/
def Obligations.PollResolvesWithAPressedKey : Prop :=
  ∀ (s : State) (es : List HostEvent) (r : Nibble), s.tickDue es → s.running = true → s.fault = none →
    s.wait = .waiting r → (∃ k, s.key k = true) →
    ∃ k t, s.key k = true ∧ step s = .next t ∧ (t.reg r).toNat = k.toNat ∧ (∀ j, j ≠ r → t.reg j = s.reg j) ∧
      t = { s with
        V := t.V, pc := s.pc + 2, wait := .idle, marker := none, phase := .finish, inputs := es, out := [],
        draws := s.draws + 1 }

/-- R163 to R166, R143: the end of a tick decrements each timer by 1, floored at 0, gives a beep with its audible bit
when the sound timer was above 0 and TimerElapsed when it becomes 0, and then the frame; nothing else changes. Rests
on: TimerElapsed only at a decrement to 0 is the spec's own decision D25; the field of outputs is the model's (log
entry 10). Rests on: TimerElapsed only at a decrement to 0 is the spec's own decision D25; the field of outputs is the
model's (log entry 10). -/
def Obligations.TickEndsWithTimersAndRender : Prop :=
  ∀ s : State, s.phase = .finish →
    ∃ t, step s = .next t ∧ t.DT.toNat = s.DT.toNat - 1 ∧ t.ST.toNat = s.ST.toNat - 1 ∧
      (s.ST.toNat = 0 → t.out = [.frame s.FB]) ∧
      (s.ST.toNat = 1 → t.out = [.beepTrigger, .audible (!s.mute), .timerElapsed, .frame s.FB]) ∧
      (2 ≤ s.ST.toNat → t.out = [.beepTrigger, .audible (!s.mute), .frame s.FB]) ∧
      t = { s with DT := t.DT, ST := t.ST, out := t.out, phase := .between }

/-- R191: in a running block with no host event pending, or with a delivered tick strobe first, the steps of one tick, at
most ten of them, reach exactly the state that the procedure Tick() gives once the strobe is taken. Rests on: the
division of a tick into steps and the queue are the model's (log entries 8 and 9). -/
def Obligations.StepsOfATickAreTheTickProcedure : Prop :=
  ∀ (s : State) (es : List HostEvent), s.tickDue es → s.running = true →
    ∃ k t, k ≤ 10 ∧ tick { s with inputs := es } = .next t ∧ Host.Core.run core k s = .next t ∧ t.phase = .between

/-- R194, R195, R199: start() arms a stopped block and runs a tick at once, and does nothing to a running one; stop()
clears `running`; toggleMute() inverts `mute` and returns the new value. Rests on: start() on a running block is the
spec's own decision D22; the queue and the outputs are the model's (log entries 9 and 10). -/
def Obligations.StartStopAndToggleMute : Prop :=
  ∀ (s : State) (es : List HostEvent), s.phase = .between →
    (s.inputs = .start :: es → s.running = true → step s = .next { s with inputs := es, out := [] }) ∧
    (s.inputs = .start :: es → s.running = false → step s = step { s with running := true, inputs := .tick :: es }) ∧
    (s.inputs = .stop :: es → step s = .next { s with running := false, inputs := es, out := [] }) ∧
    (s.inputs = .toggleMute :: es →
      step s = .next { s with mute := !s.mute, inputs := es, out := [.muteState (!s.mute)] })

/-- R190, R195, R222: a stopped block with no host event pending is inert, and a tick strobe does not move it. Rests
on: the queue and the outputs are the model's (log entries 9 and 10). Rests on: the queue and the outputs are the
model's (log entries 9 and 10). -/
def Obligations.StoppedBlockIsInert : Prop :=
  ∀ (s : State) (es : List HostEvent), s.phase = .between → s.running = false →
    (s.inputs = [] → step s = .next { s with out := [] }) ∧
    (s.inputs = .tick :: es → step s = .next { s with inputs := es, out := [] })

/-- R65: loadBuffer copies its bytes to 0x200 on and changes nothing else, or is refused whole when it does not fit.
Rests on: the refusal is the spec's own decision D16; the queue is the model's (log entry 9). -/
def Obligations.LoadBufferCopiesOrRefusesWhole : Prop :=
  ∀ (s : State) (bs : List Byte) (es : List HostEvent), Memory.wf s.config.font s.mem → s.phase = .between →
    s.inputs = .loadBuffer bs :: es →
    (0x200 + bs.length ≤ 0x1000 →
      ∃ t, step s = .next t ∧ (∀ (j : Nat) (h : j < bs.length), t.byteAt (0x200 + j) = bs[j]) ∧
        SameBytesOutside s t 0x200 bs.length ∧ t = { s with mem := t.mem, inputs := es, out := [] }) ∧
    (0x1000 < 0x200 + bs.length → step s = .next { s with inputs := es, out := [] })

/-- R37: the values after construction and after every reset, `running` and `mute` included; a reset event gives them
(R198). Rests on: running and mute are the spec's own decisions D22 and D23. -/
def Obligations.ConstructionAndResetValues : Prop :=
  (ResetValues State.reset ∧ State.reset.running = false ∧ State.reset.mute = false) ∧
  ∀ (s : State) (es : List HostEvent), s.phase = .between → s.inputs = .reset :: es →
    ∃ t, step s = .next t ∧ ResetValues t ∧ t.running = s.running ∧ t.mute = s.mute ∧ t.config = s.config ∧
      t.inputs = es

/-- R232: two resets leave the same state as one, and reset leaves the same spec state (the fourteen pieces of R20, and
every byte of memory) whatever the state before it, `running` and `mute` apart. Rests on: that the parameters are
carried by the state and that a reset leaves them and the model's own fields `phase`, `inputs`, `out` and `draws` as
they are is the model's choice (log entries 1, 7, 8, 9 and 10). -/
def Obligations.ResetIsIdempotentAndForgets : Prop :=
  (∀ s : State, s.hostReset.hostReset = s.hostReset) ∧
  (∀ s t : State, s.running = t.running → s.mute = t.mute → s.config = t.config →
    s.hostReset.mem = t.hostReset.mem ∧ (∀ a, s.hostReset.byteAt a = t.hostReset.byteAt a) ∧
    s.hostReset.V = t.hostReset.V ∧ s.hostReset.I = t.hostReset.I ∧ s.hostReset.pc = t.hostReset.pc ∧
    s.hostReset.stack = t.hostReset.stack ∧ s.hostReset.DT = t.hostReset.DT ∧ s.hostReset.ST = t.hostReset.ST ∧
    s.hostReset.keys = t.hostReset.keys ∧ s.hostReset.wait = t.hostReset.wait ∧
    s.hostReset.marker = t.hostReset.marker ∧ s.hostReset.FB = t.hostReset.FB ∧
    s.hostReset.running = t.hostReset.running ∧ s.hostReset.mute = t.hostReset.mute ∧
    s.hostReset.fault = t.hostReset.fault) ∧
  ∀ s : State, s.hostReset.config = s.config ∧ s.hostReset.phase = s.phase ∧ s.hostReset.inputs = s.inputs ∧
    s.hostReset.out = s.out ∧ s.hostReset.draws = s.draws

/-- R165: "Mute changes neither ST nor the timing of BeepTrigger": from a state with the other mute setting, a step
gives the same state but for `mute`, the audible bit and the value toggleMute returns. Rests on: the outputs are the
model's (log entry 10). -/
def Obligations.MuteGatesOnlyTheAudibleBit : Prop :=
  ∀ s t : State, step s = .next t →
    step { s with mute := !s.mute } = .next { t with
      mute := !t.mute,
      out := t.out.map fun o =>
        match o with
        | .audible b => .audible (!b)
        | .muteState b => .muteState (!b)
        | .beepTrigger => .beepTrigger
        | .timerElapsed => .timerElapsed
        | .frame fb => .frame fb }

/-! ### Whole-machine rules -/

/-- R21, R26: the registers an instruction may change: the register it names as its result, VF for the instructions
with a flag, V0 to VX for FX65. 7XNN, 8XY1, 8XY2, 8XY3 and FX1E write no flag. -/
def Obligations.RegistersChangeOnlyAsNamed : Prop :=
  ∀ (i : Instr) (s t : State) (k : Nibble), exec i s = .next t → t.reg k ≠ s.reg k →
    match i with
    | .ldImm x _ | .addImm x _ | .rnd x _ | .ldReg x _ | .orReg x _ | .andReg x _ | .xorReg x _ | .ldVxDT x => k = x
    | .addReg x _ | .subReg x _ | .shrReg x _ | .subnReg x _ | .shlReg x _ => k = x ∨ k = 0xF
    | .drw _ _ _ => k = 0xF
    | .loadRegs x => k.toNat ≤ x.toNat
    | _ => False

/-- R52: no instruction writes memory but FX33 (3 bytes at I) and FX55 (X + 1 bytes at I). -/
def Obligations.MemoryChangesOnlyByFX33AndFX55 : Prop :=
  ∀ (i : Instr) (s t : State) (a : Nat), Memory.wf s.config.font s.mem → exec i s = .next t →
    t.byteAt a ≠ s.byteAt a →
    match i with
    | .ldB _ => s.I.toNat ≤ a ∧ a < s.I.toNat + 3
    | .storeRegs x => s.I.toNat ≤ a ∧ a ≤ s.I.toNat + x.toNat
    | _ => False

/-- R23, R24, R25, R27, R28, R29, R30, R31, R32: which instructions write I, the stack, the timers, the framebuffer,
the key-wait indicator and the marker; no instruction writes the keys, `running`, `mute` or the model's own fields but
the draw counter of CXNN. Rests on: the draw counter and the fields config, phase, inputs and out are the model's (log
entries 1, 7, 8, 9 and 10). -/
def Obligations.OtherStateChangesOnlyByItsInstructions : Prop :=
  ∀ (i : Instr) (s t : State), exec i s = .next t →
    (t.I ≠ s.I → match i with | .ldI _ | .addI _ | .ldF _ => True | _ => False) ∧
    (t.stack ≠ s.stack → match i with | .call _ | .ret => True | _ => False) ∧
    (t.DT ≠ s.DT → match i with | .ldDTVx _ => True | _ => False) ∧
    (t.ST ≠ s.ST → match i with | .ldSTVx _ => True | _ => False) ∧
    (t.FB ≠ s.FB → match i with | .cls | .drw _ _ _ => True | _ => False) ∧
    (t.wait ≠ s.wait ∨ t.marker ≠ s.marker → match i with | .ldVxK _ => True | _ => False) ∧
    (t.draws ≠ s.draws → match i with | .rnd _ _ => True | _ => False) ∧
    t.keys = s.keys ∧ t.running = s.running ∧ t.mute = s.mute ∧ t.config = s.config ∧ t.phase = s.phase ∧
    t.inputs = s.inputs ∧ t.out = s.out

/-- R95: the pc every instruction leaves, where it raises no fault. Rests on: the key test with VX unmapped is the
spec's own decision D9. -/
def Obligations.PcAfterEveryInstruction : Prop :=
  ∀ (i : Instr) (s t : State), exec i s = .next t → s.fault = none → t.fault = none →
    t.pc = match i with
      | .jp nnn | .call nnn => BitVec.ofNat 16 nnn.toNat
      | .jpV0 nnn => BitVec.ofNat 16 (nnn.toNat + (s.reg 0x0).toNat)
      | .ret => s.stack.getLast?.getD 0 + 2
      | .seImm x nn => if s.reg x = nn then s.pc + 4 else s.pc + 2
      | .sneImm x nn => if s.reg x ≠ nn then s.pc + 4 else s.pc + 2
      | .seReg x y _ => if s.reg x = s.reg y then s.pc + 4 else s.pc + 2
      | .sneReg x y _ => if s.reg x ≠ s.reg y then s.pc + 4 else s.pc + 2
      | .skp x =>
        if 0x10 ≤ (s.reg x).toNat then
          (if s.config.unmappedKeyPolicy = .stall then s.pc else s.pc + 2)
        else if s.key ((s.reg x).setWidth 4) then s.pc + 4 else s.pc + 2
      | .sknp x =>
        if 0x10 ≤ (s.reg x).toNat then
          (if s.config.unmappedKeyPolicy = .stall then s.pc else s.pc + 2)
        else if s.key ((s.reg x).setWidth 4) then s.pc + 2 else s.pc + 4
      | .ldVxK _ => s.pc
      | _ => s.pc + 2

/-- R210, R33, R200: from a state with no fault recorded, the fault each instruction raises and when, with its own pc and
word, and the code number, pc and word that the fault port then gives; every other instruction raises none, and the
port gives 0, 0 and 0. IllegalInstruction, code 1, is in `StepRaisesIllegalInstruction`. Rests on: the faults and their
numbers are the spec's own decisions D2, D5, D6, D15 and D21. -/
def Obligations.FaultConditionsOfEveryInstruction : Prop :=
  ∀ (i : Instr) (s : State) (raised : Option (FaultCode × Nibble)), s.fault = none →
    raised = (match i with
      | .ret => if s.stack = [] then some (.stackUnderflow, 2) else none
      | .call _ => if 16 ≤ s.stack.length then some (.stackOverflow, 3) else none
      | .drw _ _ n => if 0 < n.toNat ∧ 0xFFF < s.I.toNat + n.toNat - 1 then some (.memoryFault, 4) else none
      | .ldB _ => if 0xFFF < s.I.toNat + 2 then some (.memoryFault, 4) else none
      | .storeRegs x | .loadRegs x => if 0xFFF < s.I.toNat + x.toNat then some (.memoryFault, 4) else none
      | .addI x => if 0xFFFF < s.I.toNat + (s.reg x).toNat then some (.indexOverflow, 5) else none
      | _ => none) →
    ∃ t, exec i s = .next t ∧ t.fault = raised.map (fun c => ⟨c.1, s.pc, encode i⟩) ∧
      t.faultPort = (match raised with
        | some c => (c.2, s.pc, encode i)
        | none => (0, 0, 0))

/-- R212: a step that records a fault changes nothing else of the machine, pc included; the record holds the pc and
the word of the faulting instruction, and the batch ends. Rests on: faults and their precision are the spec's own
decisions D21 and D32; the phase and the outputs are the model's (log entries 8 and 10). -/
def Obligations.FaultsArePrecise : Prop :=
  ∀ s t : State, step s = .next t → s.fault = none → t.fault ≠ none →
    ∃ code, t = { s with fault := some ⟨code, s.pc, s.fetchWord⟩, out := [], phase := .finish }

/-- R213: while a fault is recorded no instruction runs and only a reset clears it: whatever the step, the fault,
registers, I, pc, stack and framebuffer stay, and memory changes only by loadBuffer. Rests on: the fault mechanism is
the spec's own decision D21. -/
def Obligations.FaultStaysUntilReset : Prop :=
  ∀ s t : State, s.Inv → s.fault ≠ none → step s = .next t →
    (∀ es, ¬(s.phase = .between ∧ s.inputs = .reset :: es)) →
    t.fault = s.fault ∧ t.V = s.V ∧ t.I = s.I ∧ t.pc = s.pc ∧ t.stack = s.stack ∧ t.FB = s.FB ∧
    ((∀ bs es, ¬(s.phase = .between ∧ s.inputs = .loadBuffer bs :: es)) → t.mem = s.mem)

/-- R201: "The block has no halt instruction and never stops by itself": every step answers a next state. Rests on:
that a fault record is a next state is the model's reading (log entry 12). -/
def Obligations.BlockNeverStops : Prop := ∀ s : State, ∃ t, step s = .next t

/-- R201 (3): an idle loop stays an idle loop: with no host event pending, a tick of a running block in one changes
only the timers and the outputs. Rests on: the idle loop as an end of a run is the spec's own decision D33. -/
def Obligations.IdleLoopIsAFixedPointOfATick : Prop :=
  ∀ s : State, s.idleLoop → s.running = true → s.inputs = [] →
    ∃ t, tick s = .next t ∧ t.idleLoop ∧ t = { s with DT := t.DT, ST := t.ST, out := t.out }

/-- The state after construction has the invariant. Rests on: that the two colours differ at State.reset is the
model's choice of them (log entry 4). -/
def Obligations.InvariantHoldsAtReset : Prop := State.reset.Inv

/-- Every step keeps the invariant: memory in its canonical form, at most 16 stack entries of at most 0xFFF, pc at
most 0x10FE, ticks only while running, a batch of 1 to 8 cycles with no wait and no fault, no wait beside a fault, pc
at the faulting instruction. Rests on: the stack depth and the faults are the spec's own decisions D5 and D21; the
phases are the model's (log entry 8). -/
def Obligations.StepKeepsTheInvariant : Prop := ∀ s t : State, s.Inv → step s = .next t → t.Inv
end

