-- ==== Sys2Proof/Laws/Decode.lean ====
section
/-! SUPPORT. The three layouts of a word: the field each bit position holds. -/

namespace Sys2Proof

/-- The bits of a word of layout C-X-Y-N. -/
theorem getLsbD_encodeNibbles (c x y n : Nibble) (i : Nat) :
    (encodeNibbles c x y n).getLsbD i =
      if i < 4 then n.getLsbD i else if i < 8 then y.getLsbD (i - 4)
      else if i < 12 then x.getLsbD (i - 8) else c.getLsbD (i - 12) := by
  show (c ++ x ++ y ++ n : BitVec (4 + 4 + 4 + 4)).getLsbD i = _
  simp only [BitVec.getLsbD_append]
  by_cases h4 : i < 4
  · simp [h4]
  · by_cases h8 : i < 8
    · simp [h4, h8, show i - 4 < 4 by omega]
    · by_cases h12 : i < 12
      · simp [h4, h8, h12, show ¬i - 4 < 4 by omega, show i - 4 - 4 = i - 8 by omega, show i - 8 < 4 by omega]
      · simp [h4, h8, h12, show ¬i - 4 < 4 by omega, show ¬i - 4 - 4 < 4 by omega,
          show i - 4 - 4 - 4 = i - 12 by omega]

/-- The bits of a word of layout C-X-NN. -/
theorem getLsbD_encodeImm (c x : Nibble) (nn : Byte) (i : Nat) :
    (encodeImm c x nn).getLsbD i =
      if i < 8 then nn.getLsbD i else if i < 12 then x.getLsbD (i - 8) else c.getLsbD (i - 12) := by
  show (c ++ x ++ nn : BitVec (4 + 4 + 8)).getLsbD i = _
  simp only [BitVec.getLsbD_append]
  by_cases h8 : i < 8
  · simp [h8]
  · by_cases h12 : i < 12
    · simp [h8, h12, show i - 8 < 4 by omega]
    · simp [h8, h12, show ¬i - 8 < 4 by omega, show i - 8 - 4 = i - 12 by omega]

/-- The bits of a word of layout C-NNN. -/
theorem getLsbD_encodeAddr (c : Nibble) (nnn : Addr12) (i : Nat) :
    (encodeAddr c nnn).getLsbD i = if i < 12 then nnn.getLsbD i else c.getLsbD (i - 12) := by
  show (c ++ nnn : BitVec (4 + 12)).getLsbD i = _
  simp only [BitVec.getLsbD_append]

/-- A word of layout C-X-NN has C, X and NN as its fields. -/
theorem fieldsOf_encodeImm (c x : Nibble) (nn : Byte) :
    (fieldsOf (encodeImm c x nn)).c = c ∧ (fieldsOf (encodeImm c x nn)).x = x ∧
      (fieldsOf (encodeImm c x nn)).nn = nn := by
  refine ⟨?_, ?_, ?_⟩ <;>
    (apply BitVec.eq_of_getLsbD_eq; intro i hi
     simp only [fieldsOf, BitVec.getLsbD_extractLsb', getLsbD_encodeImm]; interval_cases i <;> simp)

/-- A word of layout C-NNN has C and NNN as its fields. -/
theorem fieldsOf_encodeAddr (c : Nibble) (nnn : Addr12) :
    (fieldsOf (encodeAddr c nnn)).c = c ∧ (fieldsOf (encodeAddr c nnn)).nnn = nnn := by
  refine ⟨?_, ?_⟩ <;>
    (apply BitVec.eq_of_getLsbD_eq; intro i hi
     simp only [fieldsOf, BitVec.getLsbD_extractLsb', getLsbD_encodeAddr]; interval_cases i <;> simp)

/-- A word of layout C-X-Y-N has C, X, Y and N as its fields. -/
theorem fieldsOf_encodeNibbles (c x y n : Nibble) :
    (fieldsOf (encodeNibbles c x y n)).c = c ∧ (fieldsOf (encodeNibbles c x y n)).x = x ∧
      (fieldsOf (encodeNibbles c x y n)).y = y ∧ (fieldsOf (encodeNibbles c x y n)).n = n := by
  refine ⟨?_, ?_, ?_, ?_⟩ <;>
    (apply BitVec.eq_of_getLsbD_eq; intro i hi
     simp only [fieldsOf, BitVec.getLsbD_extractLsb', getLsbD_encodeNibbles]; interval_cases i <;> simp)

/-- Every word is its four nibbles. -/
theorem encodeNibbles_fieldsOf (w : Word) :
    encodeNibbles (fieldsOf w).c (fieldsOf w).x (fieldsOf w).y (fieldsOf w).n = w := by
  apply BitVec.eq_of_getLsbD_eq; intro i hi
  simp only [fieldsOf, BitVec.getLsbD_extractLsb', getLsbD_encodeNibbles]; interval_cases i <;> simp

/-- A word is its class, X and NN. -/
theorem encodeImm_fieldsOf (w : Word) : encodeImm (fieldsOf w).c (fieldsOf w).x (fieldsOf w).nn = w := by
  apply BitVec.eq_of_getLsbD_eq; intro i hi
  simp only [fieldsOf, BitVec.getLsbD_extractLsb', getLsbD_encodeImm]; interval_cases i <;> simp

/-- A word is its class and NNN. -/
theorem encodeAddr_fieldsOf (w : Word) : encodeAddr (fieldsOf w).c (fieldsOf w).nnn = w := by
  apply BitVec.eq_of_getLsbD_eq; intro i hi
  simp only [fieldsOf, BitVec.getLsbD_extractLsb', getLsbD_encodeAddr]; interval_cases i <;> simp

/-- A field set of the decoder is well-formed. -/
theorem fieldsOf_wellFormed (w : Word) : (fieldsOf w).wellFormed := ⟨rfl, rfl, rfl, rfl, rfl, rfl⟩

end Sys2Proof
end

