-- ==== Sys2Proof/Laws/State.lean ====
section
/-! SUPPORT. One lemma per field per update of the state, each true by rfl, so that no later proof unfolds a record
update. -/

namespace Sys2Proof.Machine

section
variable (s : State) (v : Memory)
@[simp] theorem State.setMem_mem : (s.setMem v).mem = v := rfl
@[simp] theorem State.setMem_V : (s.setMem v).V = s.V := rfl
@[simp] theorem State.setMem_I : (s.setMem v).I = s.I := rfl
@[simp] theorem State.setMem_pc : (s.setMem v).pc = s.pc := rfl
@[simp] theorem State.setMem_stack : (s.setMem v).stack = s.stack := rfl
@[simp] theorem State.setMem_DT : (s.setMem v).DT = s.DT := rfl
@[simp] theorem State.setMem_ST : (s.setMem v).ST = s.ST := rfl
@[simp] theorem State.setMem_keys : (s.setMem v).keys = s.keys := rfl
@[simp] theorem State.setMem_wait : (s.setMem v).wait = s.wait := rfl
@[simp] theorem State.setMem_marker : (s.setMem v).marker = s.marker := rfl
@[simp] theorem State.setMem_FB : (s.setMem v).FB = s.FB := rfl
@[simp] theorem State.setMem_running : (s.setMem v).running = s.running := rfl
@[simp] theorem State.setMem_mute : (s.setMem v).mute = s.mute := rfl
@[simp] theorem State.setMem_fault : (s.setMem v).fault = s.fault := rfl
@[simp] theorem State.setMem_config : (s.setMem v).config = s.config := rfl
@[simp] theorem State.setMem_phase : (s.setMem v).phase = s.phase := rfl
@[simp] theorem State.setMem_inputs : (s.setMem v).inputs = s.inputs := rfl
@[simp] theorem State.setMem_out : (s.setMem v).out = s.out := rfl
@[simp] theorem State.setMem_draws : (s.setMem v).draws = s.draws := rfl
end

section
variable (s : State) (v : Vector Byte 16)
@[simp] theorem State.setV_mem : (s.setV v).mem = s.mem := rfl
@[simp] theorem State.setV_V : (s.setV v).V = v := rfl
@[simp] theorem State.setV_I : (s.setV v).I = s.I := rfl
@[simp] theorem State.setV_pc : (s.setV v).pc = s.pc := rfl
@[simp] theorem State.setV_stack : (s.setV v).stack = s.stack := rfl
@[simp] theorem State.setV_DT : (s.setV v).DT = s.DT := rfl
@[simp] theorem State.setV_ST : (s.setV v).ST = s.ST := rfl
@[simp] theorem State.setV_keys : (s.setV v).keys = s.keys := rfl
@[simp] theorem State.setV_wait : (s.setV v).wait = s.wait := rfl
@[simp] theorem State.setV_marker : (s.setV v).marker = s.marker := rfl
@[simp] theorem State.setV_FB : (s.setV v).FB = s.FB := rfl
@[simp] theorem State.setV_running : (s.setV v).running = s.running := rfl
@[simp] theorem State.setV_mute : (s.setV v).mute = s.mute := rfl
@[simp] theorem State.setV_fault : (s.setV v).fault = s.fault := rfl
@[simp] theorem State.setV_config : (s.setV v).config = s.config := rfl
@[simp] theorem State.setV_phase : (s.setV v).phase = s.phase := rfl
@[simp] theorem State.setV_inputs : (s.setV v).inputs = s.inputs := rfl
@[simp] theorem State.setV_out : (s.setV v).out = s.out := rfl
@[simp] theorem State.setV_draws : (s.setV v).draws = s.draws := rfl
end

section
variable (s : State) (v : Word)
@[simp] theorem State.setI_mem : (s.setI v).mem = s.mem := rfl
@[simp] theorem State.setI_V : (s.setI v).V = s.V := rfl
@[simp] theorem State.setI_I : (s.setI v).I = v := rfl
@[simp] theorem State.setI_pc : (s.setI v).pc = s.pc := rfl
@[simp] theorem State.setI_stack : (s.setI v).stack = s.stack := rfl
@[simp] theorem State.setI_DT : (s.setI v).DT = s.DT := rfl
@[simp] theorem State.setI_ST : (s.setI v).ST = s.ST := rfl
@[simp] theorem State.setI_keys : (s.setI v).keys = s.keys := rfl
@[simp] theorem State.setI_wait : (s.setI v).wait = s.wait := rfl
@[simp] theorem State.setI_marker : (s.setI v).marker = s.marker := rfl
@[simp] theorem State.setI_FB : (s.setI v).FB = s.FB := rfl
@[simp] theorem State.setI_running : (s.setI v).running = s.running := rfl
@[simp] theorem State.setI_mute : (s.setI v).mute = s.mute := rfl
@[simp] theorem State.setI_fault : (s.setI v).fault = s.fault := rfl
@[simp] theorem State.setI_config : (s.setI v).config = s.config := rfl
@[simp] theorem State.setI_phase : (s.setI v).phase = s.phase := rfl
@[simp] theorem State.setI_inputs : (s.setI v).inputs = s.inputs := rfl
@[simp] theorem State.setI_out : (s.setI v).out = s.out := rfl
@[simp] theorem State.setI_draws : (s.setI v).draws = s.draws := rfl
end

section
variable (s : State) (v : Word)
@[simp] theorem State.setPc_mem : (s.setPc v).mem = s.mem := rfl
@[simp] theorem State.setPc_V : (s.setPc v).V = s.V := rfl
@[simp] theorem State.setPc_I : (s.setPc v).I = s.I := rfl
@[simp] theorem State.setPc_pc : (s.setPc v).pc = v := rfl
@[simp] theorem State.setPc_stack : (s.setPc v).stack = s.stack := rfl
@[simp] theorem State.setPc_DT : (s.setPc v).DT = s.DT := rfl
@[simp] theorem State.setPc_ST : (s.setPc v).ST = s.ST := rfl
@[simp] theorem State.setPc_keys : (s.setPc v).keys = s.keys := rfl
@[simp] theorem State.setPc_wait : (s.setPc v).wait = s.wait := rfl
@[simp] theorem State.setPc_marker : (s.setPc v).marker = s.marker := rfl
@[simp] theorem State.setPc_FB : (s.setPc v).FB = s.FB := rfl
@[simp] theorem State.setPc_running : (s.setPc v).running = s.running := rfl
@[simp] theorem State.setPc_mute : (s.setPc v).mute = s.mute := rfl
@[simp] theorem State.setPc_fault : (s.setPc v).fault = s.fault := rfl
@[simp] theorem State.setPc_config : (s.setPc v).config = s.config := rfl
@[simp] theorem State.setPc_phase : (s.setPc v).phase = s.phase := rfl
@[simp] theorem State.setPc_inputs : (s.setPc v).inputs = s.inputs := rfl
@[simp] theorem State.setPc_out : (s.setPc v).out = s.out := rfl
@[simp] theorem State.setPc_draws : (s.setPc v).draws = s.draws := rfl
end

section
variable (s : State) (v : List Word)
@[simp] theorem State.setStack_mem : (s.setStack v).mem = s.mem := rfl
@[simp] theorem State.setStack_V : (s.setStack v).V = s.V := rfl
@[simp] theorem State.setStack_I : (s.setStack v).I = s.I := rfl
@[simp] theorem State.setStack_pc : (s.setStack v).pc = s.pc := rfl
@[simp] theorem State.setStack_stack : (s.setStack v).stack = v := rfl
@[simp] theorem State.setStack_DT : (s.setStack v).DT = s.DT := rfl
@[simp] theorem State.setStack_ST : (s.setStack v).ST = s.ST := rfl
@[simp] theorem State.setStack_keys : (s.setStack v).keys = s.keys := rfl
@[simp] theorem State.setStack_wait : (s.setStack v).wait = s.wait := rfl
@[simp] theorem State.setStack_marker : (s.setStack v).marker = s.marker := rfl
@[simp] theorem State.setStack_FB : (s.setStack v).FB = s.FB := rfl
@[simp] theorem State.setStack_running : (s.setStack v).running = s.running := rfl
@[simp] theorem State.setStack_mute : (s.setStack v).mute = s.mute := rfl
@[simp] theorem State.setStack_fault : (s.setStack v).fault = s.fault := rfl
@[simp] theorem State.setStack_config : (s.setStack v).config = s.config := rfl
@[simp] theorem State.setStack_phase : (s.setStack v).phase = s.phase := rfl
@[simp] theorem State.setStack_inputs : (s.setStack v).inputs = s.inputs := rfl
@[simp] theorem State.setStack_out : (s.setStack v).out = s.out := rfl
@[simp] theorem State.setStack_draws : (s.setStack v).draws = s.draws := rfl
end

section
variable (s : State) (v : Byte)
@[simp] theorem State.setDT_mem : (s.setDT v).mem = s.mem := rfl
@[simp] theorem State.setDT_V : (s.setDT v).V = s.V := rfl
@[simp] theorem State.setDT_I : (s.setDT v).I = s.I := rfl
@[simp] theorem State.setDT_pc : (s.setDT v).pc = s.pc := rfl
@[simp] theorem State.setDT_stack : (s.setDT v).stack = s.stack := rfl
@[simp] theorem State.setDT_DT : (s.setDT v).DT = v := rfl
@[simp] theorem State.setDT_ST : (s.setDT v).ST = s.ST := rfl
@[simp] theorem State.setDT_keys : (s.setDT v).keys = s.keys := rfl
@[simp] theorem State.setDT_wait : (s.setDT v).wait = s.wait := rfl
@[simp] theorem State.setDT_marker : (s.setDT v).marker = s.marker := rfl
@[simp] theorem State.setDT_FB : (s.setDT v).FB = s.FB := rfl
@[simp] theorem State.setDT_running : (s.setDT v).running = s.running := rfl
@[simp] theorem State.setDT_mute : (s.setDT v).mute = s.mute := rfl
@[simp] theorem State.setDT_fault : (s.setDT v).fault = s.fault := rfl
@[simp] theorem State.setDT_config : (s.setDT v).config = s.config := rfl
@[simp] theorem State.setDT_phase : (s.setDT v).phase = s.phase := rfl
@[simp] theorem State.setDT_inputs : (s.setDT v).inputs = s.inputs := rfl
@[simp] theorem State.setDT_out : (s.setDT v).out = s.out := rfl
@[simp] theorem State.setDT_draws : (s.setDT v).draws = s.draws := rfl
end

section
variable (s : State) (v : Byte)
@[simp] theorem State.setST_mem : (s.setST v).mem = s.mem := rfl
@[simp] theorem State.setST_V : (s.setST v).V = s.V := rfl
@[simp] theorem State.setST_I : (s.setST v).I = s.I := rfl
@[simp] theorem State.setST_pc : (s.setST v).pc = s.pc := rfl
@[simp] theorem State.setST_stack : (s.setST v).stack = s.stack := rfl
@[simp] theorem State.setST_DT : (s.setST v).DT = s.DT := rfl
@[simp] theorem State.setST_ST : (s.setST v).ST = v := rfl
@[simp] theorem State.setST_keys : (s.setST v).keys = s.keys := rfl
@[simp] theorem State.setST_wait : (s.setST v).wait = s.wait := rfl
@[simp] theorem State.setST_marker : (s.setST v).marker = s.marker := rfl
@[simp] theorem State.setST_FB : (s.setST v).FB = s.FB := rfl
@[simp] theorem State.setST_running : (s.setST v).running = s.running := rfl
@[simp] theorem State.setST_mute : (s.setST v).mute = s.mute := rfl
@[simp] theorem State.setST_fault : (s.setST v).fault = s.fault := rfl
@[simp] theorem State.setST_config : (s.setST v).config = s.config := rfl
@[simp] theorem State.setST_phase : (s.setST v).phase = s.phase := rfl
@[simp] theorem State.setST_inputs : (s.setST v).inputs = s.inputs := rfl
@[simp] theorem State.setST_out : (s.setST v).out = s.out := rfl
@[simp] theorem State.setST_draws : (s.setST v).draws = s.draws := rfl
end

section
variable (s : State) (v : Vector Bool 16)
@[simp] theorem State.setKeys_mem : (s.setKeys v).mem = s.mem := rfl
@[simp] theorem State.setKeys_V : (s.setKeys v).V = s.V := rfl
@[simp] theorem State.setKeys_I : (s.setKeys v).I = s.I := rfl
@[simp] theorem State.setKeys_pc : (s.setKeys v).pc = s.pc := rfl
@[simp] theorem State.setKeys_stack : (s.setKeys v).stack = s.stack := rfl
@[simp] theorem State.setKeys_DT : (s.setKeys v).DT = s.DT := rfl
@[simp] theorem State.setKeys_ST : (s.setKeys v).ST = s.ST := rfl
@[simp] theorem State.setKeys_keys : (s.setKeys v).keys = v := rfl
@[simp] theorem State.setKeys_wait : (s.setKeys v).wait = s.wait := rfl
@[simp] theorem State.setKeys_marker : (s.setKeys v).marker = s.marker := rfl
@[simp] theorem State.setKeys_FB : (s.setKeys v).FB = s.FB := rfl
@[simp] theorem State.setKeys_running : (s.setKeys v).running = s.running := rfl
@[simp] theorem State.setKeys_mute : (s.setKeys v).mute = s.mute := rfl
@[simp] theorem State.setKeys_fault : (s.setKeys v).fault = s.fault := rfl
@[simp] theorem State.setKeys_config : (s.setKeys v).config = s.config := rfl
@[simp] theorem State.setKeys_phase : (s.setKeys v).phase = s.phase := rfl
@[simp] theorem State.setKeys_inputs : (s.setKeys v).inputs = s.inputs := rfl
@[simp] theorem State.setKeys_out : (s.setKeys v).out = s.out := rfl
@[simp] theorem State.setKeys_draws : (s.setKeys v).draws = s.draws := rfl
end

section
variable (s : State) (v : Wait)
@[simp] theorem State.setWait_mem : (s.setWait v).mem = s.mem := rfl
@[simp] theorem State.setWait_V : (s.setWait v).V = s.V := rfl
@[simp] theorem State.setWait_I : (s.setWait v).I = s.I := rfl
@[simp] theorem State.setWait_pc : (s.setWait v).pc = s.pc := rfl
@[simp] theorem State.setWait_stack : (s.setWait v).stack = s.stack := rfl
@[simp] theorem State.setWait_DT : (s.setWait v).DT = s.DT := rfl
@[simp] theorem State.setWait_ST : (s.setWait v).ST = s.ST := rfl
@[simp] theorem State.setWait_keys : (s.setWait v).keys = s.keys := rfl
@[simp] theorem State.setWait_wait : (s.setWait v).wait = v := rfl
@[simp] theorem State.setWait_marker : (s.setWait v).marker = s.marker := rfl
@[simp] theorem State.setWait_FB : (s.setWait v).FB = s.FB := rfl
@[simp] theorem State.setWait_running : (s.setWait v).running = s.running := rfl
@[simp] theorem State.setWait_mute : (s.setWait v).mute = s.mute := rfl
@[simp] theorem State.setWait_fault : (s.setWait v).fault = s.fault := rfl
@[simp] theorem State.setWait_config : (s.setWait v).config = s.config := rfl
@[simp] theorem State.setWait_phase : (s.setWait v).phase = s.phase := rfl
@[simp] theorem State.setWait_inputs : (s.setWait v).inputs = s.inputs := rfl
@[simp] theorem State.setWait_out : (s.setWait v).out = s.out := rfl
@[simp] theorem State.setWait_draws : (s.setWait v).draws = s.draws := rfl
end

section
variable (s : State) (v : Option Nibble)
@[simp] theorem State.setMarker_mem : (s.setMarker v).mem = s.mem := rfl
@[simp] theorem State.setMarker_V : (s.setMarker v).V = s.V := rfl
@[simp] theorem State.setMarker_I : (s.setMarker v).I = s.I := rfl
@[simp] theorem State.setMarker_pc : (s.setMarker v).pc = s.pc := rfl
@[simp] theorem State.setMarker_stack : (s.setMarker v).stack = s.stack := rfl
@[simp] theorem State.setMarker_DT : (s.setMarker v).DT = s.DT := rfl
@[simp] theorem State.setMarker_ST : (s.setMarker v).ST = s.ST := rfl
@[simp] theorem State.setMarker_keys : (s.setMarker v).keys = s.keys := rfl
@[simp] theorem State.setMarker_wait : (s.setMarker v).wait = s.wait := rfl
@[simp] theorem State.setMarker_marker : (s.setMarker v).marker = v := rfl
@[simp] theorem State.setMarker_FB : (s.setMarker v).FB = s.FB := rfl
@[simp] theorem State.setMarker_running : (s.setMarker v).running = s.running := rfl
@[simp] theorem State.setMarker_mute : (s.setMarker v).mute = s.mute := rfl
@[simp] theorem State.setMarker_fault : (s.setMarker v).fault = s.fault := rfl
@[simp] theorem State.setMarker_config : (s.setMarker v).config = s.config := rfl
@[simp] theorem State.setMarker_phase : (s.setMarker v).phase = s.phase := rfl
@[simp] theorem State.setMarker_inputs : (s.setMarker v).inputs = s.inputs := rfl
@[simp] theorem State.setMarker_out : (s.setMarker v).out = s.out := rfl
@[simp] theorem State.setMarker_draws : (s.setMarker v).draws = s.draws := rfl
end

section
variable (s : State) (v : Framebuffer)
@[simp] theorem State.setFB_mem : (s.setFB v).mem = s.mem := rfl
@[simp] theorem State.setFB_V : (s.setFB v).V = s.V := rfl
@[simp] theorem State.setFB_I : (s.setFB v).I = s.I := rfl
@[simp] theorem State.setFB_pc : (s.setFB v).pc = s.pc := rfl
@[simp] theorem State.setFB_stack : (s.setFB v).stack = s.stack := rfl
@[simp] theorem State.setFB_DT : (s.setFB v).DT = s.DT := rfl
@[simp] theorem State.setFB_ST : (s.setFB v).ST = s.ST := rfl
@[simp] theorem State.setFB_keys : (s.setFB v).keys = s.keys := rfl
@[simp] theorem State.setFB_wait : (s.setFB v).wait = s.wait := rfl
@[simp] theorem State.setFB_marker : (s.setFB v).marker = s.marker := rfl
@[simp] theorem State.setFB_FB : (s.setFB v).FB = v := rfl
@[simp] theorem State.setFB_running : (s.setFB v).running = s.running := rfl
@[simp] theorem State.setFB_mute : (s.setFB v).mute = s.mute := rfl
@[simp] theorem State.setFB_fault : (s.setFB v).fault = s.fault := rfl
@[simp] theorem State.setFB_config : (s.setFB v).config = s.config := rfl
@[simp] theorem State.setFB_phase : (s.setFB v).phase = s.phase := rfl
@[simp] theorem State.setFB_inputs : (s.setFB v).inputs = s.inputs := rfl
@[simp] theorem State.setFB_out : (s.setFB v).out = s.out := rfl
@[simp] theorem State.setFB_draws : (s.setFB v).draws = s.draws := rfl
end

section
variable (s : State) (v : Bool)
@[simp] theorem State.setRunning_mem : (s.setRunning v).mem = s.mem := rfl
@[simp] theorem State.setRunning_V : (s.setRunning v).V = s.V := rfl
@[simp] theorem State.setRunning_I : (s.setRunning v).I = s.I := rfl
@[simp] theorem State.setRunning_pc : (s.setRunning v).pc = s.pc := rfl
@[simp] theorem State.setRunning_stack : (s.setRunning v).stack = s.stack := rfl
@[simp] theorem State.setRunning_DT : (s.setRunning v).DT = s.DT := rfl
@[simp] theorem State.setRunning_ST : (s.setRunning v).ST = s.ST := rfl
@[simp] theorem State.setRunning_keys : (s.setRunning v).keys = s.keys := rfl
@[simp] theorem State.setRunning_wait : (s.setRunning v).wait = s.wait := rfl
@[simp] theorem State.setRunning_marker : (s.setRunning v).marker = s.marker := rfl
@[simp] theorem State.setRunning_FB : (s.setRunning v).FB = s.FB := rfl
@[simp] theorem State.setRunning_running : (s.setRunning v).running = v := rfl
@[simp] theorem State.setRunning_mute : (s.setRunning v).mute = s.mute := rfl
@[simp] theorem State.setRunning_fault : (s.setRunning v).fault = s.fault := rfl
@[simp] theorem State.setRunning_config : (s.setRunning v).config = s.config := rfl
@[simp] theorem State.setRunning_phase : (s.setRunning v).phase = s.phase := rfl
@[simp] theorem State.setRunning_inputs : (s.setRunning v).inputs = s.inputs := rfl
@[simp] theorem State.setRunning_out : (s.setRunning v).out = s.out := rfl
@[simp] theorem State.setRunning_draws : (s.setRunning v).draws = s.draws := rfl
end

section
variable (s : State) (v : Bool)
@[simp] theorem State.setMute_mem : (s.setMute v).mem = s.mem := rfl
@[simp] theorem State.setMute_V : (s.setMute v).V = s.V := rfl
@[simp] theorem State.setMute_I : (s.setMute v).I = s.I := rfl
@[simp] theorem State.setMute_pc : (s.setMute v).pc = s.pc := rfl
@[simp] theorem State.setMute_stack : (s.setMute v).stack = s.stack := rfl
@[simp] theorem State.setMute_DT : (s.setMute v).DT = s.DT := rfl
@[simp] theorem State.setMute_ST : (s.setMute v).ST = s.ST := rfl
@[simp] theorem State.setMute_keys : (s.setMute v).keys = s.keys := rfl
@[simp] theorem State.setMute_wait : (s.setMute v).wait = s.wait := rfl
@[simp] theorem State.setMute_marker : (s.setMute v).marker = s.marker := rfl
@[simp] theorem State.setMute_FB : (s.setMute v).FB = s.FB := rfl
@[simp] theorem State.setMute_running : (s.setMute v).running = s.running := rfl
@[simp] theorem State.setMute_mute : (s.setMute v).mute = v := rfl
@[simp] theorem State.setMute_fault : (s.setMute v).fault = s.fault := rfl
@[simp] theorem State.setMute_config : (s.setMute v).config = s.config := rfl
@[simp] theorem State.setMute_phase : (s.setMute v).phase = s.phase := rfl
@[simp] theorem State.setMute_inputs : (s.setMute v).inputs = s.inputs := rfl
@[simp] theorem State.setMute_out : (s.setMute v).out = s.out := rfl
@[simp] theorem State.setMute_draws : (s.setMute v).draws = s.draws := rfl
end

section
variable (s : State) (v : Option FaultRecord)
@[simp] theorem State.setFault_mem : (s.setFault v).mem = s.mem := rfl
@[simp] theorem State.setFault_V : (s.setFault v).V = s.V := rfl
@[simp] theorem State.setFault_I : (s.setFault v).I = s.I := rfl
@[simp] theorem State.setFault_pc : (s.setFault v).pc = s.pc := rfl
@[simp] theorem State.setFault_stack : (s.setFault v).stack = s.stack := rfl
@[simp] theorem State.setFault_DT : (s.setFault v).DT = s.DT := rfl
@[simp] theorem State.setFault_ST : (s.setFault v).ST = s.ST := rfl
@[simp] theorem State.setFault_keys : (s.setFault v).keys = s.keys := rfl
@[simp] theorem State.setFault_wait : (s.setFault v).wait = s.wait := rfl
@[simp] theorem State.setFault_marker : (s.setFault v).marker = s.marker := rfl
@[simp] theorem State.setFault_FB : (s.setFault v).FB = s.FB := rfl
@[simp] theorem State.setFault_running : (s.setFault v).running = s.running := rfl
@[simp] theorem State.setFault_mute : (s.setFault v).mute = s.mute := rfl
@[simp] theorem State.setFault_fault : (s.setFault v).fault = v := rfl
@[simp] theorem State.setFault_config : (s.setFault v).config = s.config := rfl
@[simp] theorem State.setFault_phase : (s.setFault v).phase = s.phase := rfl
@[simp] theorem State.setFault_inputs : (s.setFault v).inputs = s.inputs := rfl
@[simp] theorem State.setFault_out : (s.setFault v).out = s.out := rfl
@[simp] theorem State.setFault_draws : (s.setFault v).draws = s.draws := rfl
end

section
variable (s : State) (v : Phase)
@[simp] theorem State.setPhase_mem : (s.setPhase v).mem = s.mem := rfl
@[simp] theorem State.setPhase_V : (s.setPhase v).V = s.V := rfl
@[simp] theorem State.setPhase_I : (s.setPhase v).I = s.I := rfl
@[simp] theorem State.setPhase_pc : (s.setPhase v).pc = s.pc := rfl
@[simp] theorem State.setPhase_stack : (s.setPhase v).stack = s.stack := rfl
@[simp] theorem State.setPhase_DT : (s.setPhase v).DT = s.DT := rfl
@[simp] theorem State.setPhase_ST : (s.setPhase v).ST = s.ST := rfl
@[simp] theorem State.setPhase_keys : (s.setPhase v).keys = s.keys := rfl
@[simp] theorem State.setPhase_wait : (s.setPhase v).wait = s.wait := rfl
@[simp] theorem State.setPhase_marker : (s.setPhase v).marker = s.marker := rfl
@[simp] theorem State.setPhase_FB : (s.setPhase v).FB = s.FB := rfl
@[simp] theorem State.setPhase_running : (s.setPhase v).running = s.running := rfl
@[simp] theorem State.setPhase_mute : (s.setPhase v).mute = s.mute := rfl
@[simp] theorem State.setPhase_fault : (s.setPhase v).fault = s.fault := rfl
@[simp] theorem State.setPhase_config : (s.setPhase v).config = s.config := rfl
@[simp] theorem State.setPhase_phase : (s.setPhase v).phase = v := rfl
@[simp] theorem State.setPhase_inputs : (s.setPhase v).inputs = s.inputs := rfl
@[simp] theorem State.setPhase_out : (s.setPhase v).out = s.out := rfl
@[simp] theorem State.setPhase_draws : (s.setPhase v).draws = s.draws := rfl
end

section
variable (s : State) (v : List HostEvent)
@[simp] theorem State.setInputs_mem : (s.setInputs v).mem = s.mem := rfl
@[simp] theorem State.setInputs_V : (s.setInputs v).V = s.V := rfl
@[simp] theorem State.setInputs_I : (s.setInputs v).I = s.I := rfl
@[simp] theorem State.setInputs_pc : (s.setInputs v).pc = s.pc := rfl
@[simp] theorem State.setInputs_stack : (s.setInputs v).stack = s.stack := rfl
@[simp] theorem State.setInputs_DT : (s.setInputs v).DT = s.DT := rfl
@[simp] theorem State.setInputs_ST : (s.setInputs v).ST = s.ST := rfl
@[simp] theorem State.setInputs_keys : (s.setInputs v).keys = s.keys := rfl
@[simp] theorem State.setInputs_wait : (s.setInputs v).wait = s.wait := rfl
@[simp] theorem State.setInputs_marker : (s.setInputs v).marker = s.marker := rfl
@[simp] theorem State.setInputs_FB : (s.setInputs v).FB = s.FB := rfl
@[simp] theorem State.setInputs_running : (s.setInputs v).running = s.running := rfl
@[simp] theorem State.setInputs_mute : (s.setInputs v).mute = s.mute := rfl
@[simp] theorem State.setInputs_fault : (s.setInputs v).fault = s.fault := rfl
@[simp] theorem State.setInputs_config : (s.setInputs v).config = s.config := rfl
@[simp] theorem State.setInputs_phase : (s.setInputs v).phase = s.phase := rfl
@[simp] theorem State.setInputs_inputs : (s.setInputs v).inputs = v := rfl
@[simp] theorem State.setInputs_out : (s.setInputs v).out = s.out := rfl
@[simp] theorem State.setInputs_draws : (s.setInputs v).draws = s.draws := rfl
end

section
variable (s : State) (v : List Output)
@[simp] theorem State.setOut_mem : (s.setOut v).mem = s.mem := rfl
@[simp] theorem State.setOut_V : (s.setOut v).V = s.V := rfl
@[simp] theorem State.setOut_I : (s.setOut v).I = s.I := rfl
@[simp] theorem State.setOut_pc : (s.setOut v).pc = s.pc := rfl
@[simp] theorem State.setOut_stack : (s.setOut v).stack = s.stack := rfl
@[simp] theorem State.setOut_DT : (s.setOut v).DT = s.DT := rfl
@[simp] theorem State.setOut_ST : (s.setOut v).ST = s.ST := rfl
@[simp] theorem State.setOut_keys : (s.setOut v).keys = s.keys := rfl
@[simp] theorem State.setOut_wait : (s.setOut v).wait = s.wait := rfl
@[simp] theorem State.setOut_marker : (s.setOut v).marker = s.marker := rfl
@[simp] theorem State.setOut_FB : (s.setOut v).FB = s.FB := rfl
@[simp] theorem State.setOut_running : (s.setOut v).running = s.running := rfl
@[simp] theorem State.setOut_mute : (s.setOut v).mute = s.mute := rfl
@[simp] theorem State.setOut_fault : (s.setOut v).fault = s.fault := rfl
@[simp] theorem State.setOut_config : (s.setOut v).config = s.config := rfl
@[simp] theorem State.setOut_phase : (s.setOut v).phase = s.phase := rfl
@[simp] theorem State.setOut_inputs : (s.setOut v).inputs = s.inputs := rfl
@[simp] theorem State.setOut_out : (s.setOut v).out = v := rfl
@[simp] theorem State.setOut_draws : (s.setOut v).draws = s.draws := rfl
end

section
variable (s : State) (v : Nat)
@[simp] theorem State.setDraws_mem : (s.setDraws v).mem = s.mem := rfl
@[simp] theorem State.setDraws_V : (s.setDraws v).V = s.V := rfl
@[simp] theorem State.setDraws_I : (s.setDraws v).I = s.I := rfl
@[simp] theorem State.setDraws_pc : (s.setDraws v).pc = s.pc := rfl
@[simp] theorem State.setDraws_stack : (s.setDraws v).stack = s.stack := rfl
@[simp] theorem State.setDraws_DT : (s.setDraws v).DT = s.DT := rfl
@[simp] theorem State.setDraws_ST : (s.setDraws v).ST = s.ST := rfl
@[simp] theorem State.setDraws_keys : (s.setDraws v).keys = s.keys := rfl
@[simp] theorem State.setDraws_wait : (s.setDraws v).wait = s.wait := rfl
@[simp] theorem State.setDraws_marker : (s.setDraws v).marker = s.marker := rfl
@[simp] theorem State.setDraws_FB : (s.setDraws v).FB = s.FB := rfl
@[simp] theorem State.setDraws_running : (s.setDraws v).running = s.running := rfl
@[simp] theorem State.setDraws_mute : (s.setDraws v).mute = s.mute := rfl
@[simp] theorem State.setDraws_fault : (s.setDraws v).fault = s.fault := rfl
@[simp] theorem State.setDraws_config : (s.setDraws v).config = s.config := rfl
@[simp] theorem State.setDraws_phase : (s.setDraws v).phase = s.phase := rfl
@[simp] theorem State.setDraws_inputs : (s.setDraws v).inputs = s.inputs := rfl
@[simp] theorem State.setDraws_out : (s.setDraws v).out = s.out := rfl
@[simp] theorem State.setDraws_draws : (s.setDraws v).draws = v := rfl
end

end Sys2Proof.Machine
end

