-- ==== Sys2Proof/Laws/Memory.lean ====
section
/-! SUPPORT. Memory: reads after writes, and that every memory operation keeps the canonical form. -/

namespace Sys2Proof.Machine

variable {font : Vector (Vector Byte 5) 16}

/-- The byte listed for an address below every listed address is none. -/
theorem Memory.lookup_eq_none {m : Memory} {a : Nat} (h : ∀ c ∈ m, a < c.1) : Memory.lookup m a = none := by
  induction m with
  | nil => rfl
  | cons c m ih =>
    have hc := h c (by simp)
    simp only [Memory.lookup]
    rw [if_neg (by omega)]
    exact ih fun d hd => h d (by simp [hd])

/-- A listed byte comes from an entry. -/
theorem Memory.mem_of_lookup {m : Memory} {a : Nat} {v : Byte} (h : Memory.lookup m a = some v) : (a, v) ∈ m := by
  induction m with
  | nil => simp [Memory.lookup] at h
  | cons c m ih =>
    obtain ⟨b, u⟩ := c
    simp only [Memory.lookup] at h
    split at h
    · rename_i hab
      simp_all
    · simp [ih h]

/-- Reading after putting an entry in front. -/
theorem Memory.get_cons {m : Memory} {a b : Nat} {v : Byte} (h : ∀ c ∈ m, a < c.1) :
    Memory.get font (Memory.cons font a v m) b = if b = a then v else Memory.get font m b := by
  unfold Memory.cons Memory.get
  split
  · rename_i hv
    split
    · rename_i hb
      subst hb
      simp [Memory.lookup_eq_none h, hv]
    · rfl
  · simp only [Memory.lookup]
    split <;> simp_all

/-- The entries of a memory in canonical form after the first lie above it. -/
theorem Memory.wf_cons {c : Host.Cell} {m : Memory} (h : Memory.wf font (c :: m)) :
    Memory.wf font m ∧ (∀ d ∈ m, c.1 < d.1) ∧ c.1 < Config.memSize ∧ c.2 ≠ Memory.background font c.1 := by
  obtain ⟨hs, hv⟩ := h
  rw [List.pairwise_cons] at hs
  exact ⟨⟨hs.2, fun d hd => hv d (by simp [hd])⟩, hs.1, hv c (by simp)⟩

/-- Reading a byte after writing one. -/
theorem Memory.get_set {m : Memory} (h : Memory.wf font m) (a b : Nat) (v : Byte) :
    Memory.get font (Memory.set font m a v) b = if b = a then v else Memory.get font m b := by
  induction m with
  | nil => exact Memory.get_cons (by simp)
  | cons c m ih =>
    obtain ⟨hm, hlt, -⟩ := Memory.wf_cons h
    obtain ⟨e, u⟩ := c
    simp only [Memory.set]
    split
    · rename_i hae
      apply Memory.get_cons
      intro d hd
      rcases List.mem_cons.1 hd with rfl | hd
      · exact hae
      · exact Nat.lt_trans hae (hlt d hd)
    · split
      · rename_i hae
        subst hae
        rw [Memory.get_cons hlt]
        split
        · rfl
        · rename_i hb
          simp [Memory.get, Memory.lookup, hb]
      · rename_i h1 h2
        have := ih hm
        unfold Memory.get at this ⊢
        simp only [Memory.lookup]
        by_cases hbe : b = e
        · subst hbe
          simp only [if_pos]
          rw [if_neg (fun hba => h2 hba.symm)]
        · simp only [if_neg hbe]
          exact this

/-- Putting an entry in front keeps the canonical form. -/
theorem Memory.cons_wf {m : Memory} (h : Memory.wf font m) {a : Nat} (ha : a < Config.memSize) (v : Byte)
    (hlt : ∀ c ∈ m, a < c.1) : Memory.wf font (Memory.cons font a v m) := by
  unfold Memory.cons
  split
  · exact h
  · rename_i hv
    exact ⟨List.pairwise_cons.2 ⟨hlt, h.1⟩, by
      intro c hc
      rcases List.mem_cons.1 hc with rfl | hc
      · exact ⟨ha, hv⟩
      · exact h.2 c hc⟩

/-- An entry of the memory after a write is at the written address or was there before. -/
theorem Memory.mem_set {m : Memory} {a : Nat} {v : Byte} {c : Host.Cell} (h : c ∈ Memory.set font m a v) :
    c.1 = a ∨ c ∈ m := by
  have hcons : ∀ (r : Memory), c ∈ Memory.cons font a v r → c.1 = a ∨ c ∈ r := by
    intro r hr
    unfold Memory.cons at hr
    split at hr
    · exact .inr hr
    · rcases List.mem_cons.1 hr with rfl | hr
      · exact .inl rfl
      · exact .inr hr
  induction m with
  | nil => exact hcons _ h
  | cons d m ih =>
    obtain ⟨e, u⟩ := d
    simp only [Memory.set] at h
    split at h
    · exact hcons _ h
    · split at h
      · rcases hcons _ h with h | h
        · exact .inl h
        · exact .inr (by simp [h])
      · rcases List.mem_cons.1 h with rfl | h
        · exact .inr (by simp)
        · rcases ih h with h | h
          · exact .inl h
          · exact .inr (by simp [h])

/-- A write inside memory keeps the canonical form. -/
theorem Memory.set_wf {m : Memory} (h : Memory.wf font m) {a : Nat} (ha : a < Config.memSize) (v : Byte) :
    Memory.wf font (Memory.set font m a v) := by
  induction m with
  | nil => exact Memory.cons_wf h ha v (by simp)
  | cons c m ih =>
    obtain ⟨hm, hlt, hc⟩ := Memory.wf_cons h
    obtain ⟨e, u⟩ := c
    simp only [Memory.set]
    split
    · rename_i hae
      refine Memory.cons_wf h ha v fun d hd => ?_
      rcases List.mem_cons.1 hd with rfl | hd
      · exact hae
      · exact Nat.lt_trans hae (hlt d hd)
    · split
      · rename_i hae
        subst hae
        exact Memory.cons_wf hm ha v hlt
      · rename_i h1 h2
        refine ⟨List.pairwise_cons.2 ⟨fun d hd => ?_, (ih hm).1⟩, fun d hd => ?_⟩
        · rcases Memory.mem_set hd with hd | hd
          · rw [hd]
            show e < a
            omega
          · exact hlt d hd
        · rcases List.mem_cons.1 hd with rfl | hd
          · exact hc
          · exact (ih hm).2 d hd

/-- A run of writes inside memory keeps the canonical form. -/
theorem Memory.setAll_wf {m : Memory} (h : Memory.wf font m) {a : Nat} {bs : List Byte}
    (hb : a + bs.length ≤ Config.memSize) : Memory.wf font (Memory.setAll font m a bs) := by
  induction bs generalizing m a with
  | nil => exact h
  | cons b bs ih =>
    simp only [List.length_cons] at hb
    exact ih (Memory.set_wf h (by omega) b) (by omega)

/-- Reading a byte after a run of writes inside memory. -/
theorem Memory.get_setAll {m : Memory} (h : Memory.wf font m) {a : Nat} {bs : List Byte}
    (hb : a + bs.length ≤ Config.memSize) (e : Nat) :
    Memory.get font (Memory.setAll font m a bs) e =
      if a ≤ e ∧ e < a + bs.length then bs[e - a]?.getD 0 else Memory.get font m e := by
  induction bs generalizing m a with
  | nil =>
    rw [if_neg (fun h => by simp at h; omega)]
    rfl
  | cons b bs ih =>
    simp only [List.length_cons] at hb ⊢
    simp only [Memory.setAll]
    rw [ih (Memory.set_wf h (by omega) b) (by omega), Memory.get_set h]
    by_cases hea : e = a
    · subst hea
      rw [if_neg (by omega), if_pos rfl, if_pos (by omega)]
      simp
    · by_cases hin : a + 1 ≤ e ∧ e < a + 1 + bs.length
      · rw [if_pos hin, if_pos (by omega), show e - a = (e - (a + 1)) + 1 by omega]
        simp
      · rw [if_neg hin, if_neg hea, if_neg (by omega)]

/-- Two memories in canonical form that read the same at every address are the same list. -/
theorem Memory.ext_get {m n : Memory} (hm : Memory.wf font m) (hn : Memory.wf font n)
    (h : ∀ a, Memory.get font m a = Memory.get font n a) : m = n := by
  induction m generalizing n with
  | nil =>
    cases n with
    | nil => rfl
    | cons c n =>
      obtain ⟨-, -, -, hc⟩ := Memory.wf_cons hn
      have := h c.1
      simp [Memory.get, Memory.lookup] at this
      exact absurd this.symm hc
  | cons c m ih =>
    obtain ⟨hm', hlm, -, hc⟩ := Memory.wf_cons hm
    cases n with
    | nil =>
      have := h c.1
      simp [Memory.get, Memory.lookup] at this
      exact absurd this hc
    | cons d n =>
      obtain ⟨hn', hln, -, hd⟩ := Memory.wf_cons hn
      have key : c.1 = d.1 := by
        rcases Nat.lt_trichotomy c.1 d.1 with hlt | heq | hgt
        · have hnone : Memory.lookup (d :: n) c.1 = none :=
            Memory.lookup_eq_none fun e he => by
              rcases List.mem_cons.1 he with rfl | he
              · exact hlt
              · exact Nat.lt_trans hlt (hln e he)
          have hg := h c.1
          rw [Memory.get, Memory.get, hnone] at hg
          simp [Memory.lookup] at hg
          exact absurd hg hc
        · exact heq
        · have hnone : Memory.lookup (c :: m) d.1 = none :=
            Memory.lookup_eq_none fun e he => by
              rcases List.mem_cons.1 he with rfl | he
              · exact hgt
              · exact Nat.lt_trans hgt (hlm e he)
          have hg := h d.1
          rw [Memory.get, Memory.get, hnone] at hg
          simp [Memory.lookup] at hg
          exact absurd hg.symm hd
      have hv : c.2 = d.2 := by
        have hg := h c.1
        simp only [Memory.get, Memory.lookup, key, if_pos, Option.getD_some] at hg
        exact hg
      have hcd : c = d := Prod.ext key hv
      subst hcd
      congr 1
      refine ih hm' hn' fun a => ?_
      have hg := h a
      by_cases ha : a = c.1
      · subst ha
        rw [Memory.get, Memory.get, Memory.lookup_eq_none hlm, Memory.lookup_eq_none hln]
      · simpa [Memory.get, Memory.lookup, ha] using hg

end Sys2Proof.Machine
end

