-- ==== Sys2Proof/Laws/Ops.lean ====
section
/-! SUPPORT. One lemma per shared operation that says what it can do, cited by later proofs in its place. -/

namespace Sys2Proof.Machine

/-! ### Registers -/

theorem State.reg_setReg (s : State) (r k : Nibble) (v : Byte) :
    (s.setReg r v).reg k = if k = r then v else s.reg k := by
  unfold State.reg State.setReg
  simp only [State.setV_V, Vector.getElem_set]
  by_cases h : k = r
  · simp [h]
  · have : r.toNat ≠ k.toNat := fun h' => h (BitVec.eq_of_toNat_eq h'.symm)
    simp [h, this]

@[simp] theorem State.reg_setReg_self (s : State) (r : Nibble) (v : Byte) : (s.setReg r v).reg r = v := by
  simp [State.reg_setReg]

theorem State.reg_setReg_ne (s : State) {r k : Nibble} (h : k ≠ r) (v : Byte) :
    (s.setReg r v).reg k = s.reg k := by
  simp [State.reg_setReg, h]

/-- Two states with the same registers read the same. -/
theorem State.reg_congr {s t : State} (h : t.V = s.V) (k : Nibble) : t.reg k = s.reg k := by
  unfold State.reg; simp [h]

@[simp] theorem State.byteAt_congr {s t : State} (h : t.mem = s.mem) (hc : t.config = s.config) (a : Nat) :
    t.byteAt a = s.byteAt a := by
  unfold State.byteAt; rw [h, hc]

/-! ### The call stack -/

theorem State.push_eq_some {s t : State} {v : Word} (h : s.push v = some t) :
    s.stack.length < 16 ∧ t = s.setStack (s.stack ++ [v]) := by
  unfold State.push Config.stackDepth at h
  split at h
  · cases h
  · exact ⟨by omega, (Option.some.inj h).symm⟩

theorem State.push_eq_none {s : State} {v : Word} : s.push v = none ↔ 16 ≤ s.stack.length := by
  unfold State.push Config.stackDepth
  split <;> simp_all

theorem State.pop_eq_some {s t : State} {r : Word} (h : s.pop = some (r, t)) :
    s.stack = t.stack ++ [r] ∧ t = s.setStack t.stack := by
  unfold State.pop at h
  split at h
  · cases h
  · rename_i q hq
    cases h
    exact ⟨(List.dropLast_append_getLast? _ hq).symm, rfl⟩

theorem State.pop_eq_none {s : State} : s.pop = none ↔ s.stack = [] := by
  unfold State.pop
  split <;> simp_all
  intro h
  simp [h] at *

theorem State.pop_append {s : State} {rest : List Word} {r : Word} (h : s.stack = rest ++ [r]) :
    s.pop = some (r, s.setStack rest) := by
  simp [State.pop, h]

/-! ### Memory spans -/

theorem spanInMemory_iff {a n : Nat} : spanInMemory a n = true ↔ n = 0 ∨ a + n ≤ 0x1000 := by
  simp only [spanInMemory, Bool.or_eq_true, beq_iff_eq, decide_eq_true_eq]

theorem State.memRead_eq_some {s : State} {a n : Nat} {bs : List Byte} (h : s.memRead a n = some bs) :
    (n = 0 ∨ a + n ≤ 0x1000) ∧ bs = (List.range n).map (fun k => s.byteAt (a + k)) := by
  unfold State.memRead at h
  split at h
  · rename_i hs
    exact ⟨spanInMemory_iff.1 hs, (Option.some.inj h).symm⟩
  · cases h

theorem State.memRead_eq_none {s : State} {a n : Nat} : s.memRead a n = none ↔ n ≠ 0 ∧ 0x1000 < a + n := by
  unfold State.memRead
  split <;> rename_i hs <;> rw [spanInMemory_iff] at hs <;> simp <;> omega

theorem State.memWrite_eq_some {s t : State} {a : Nat} {bs : List Byte} (h : s.memWrite a bs = some t) :
    (bs = [] ∨ a + bs.length ≤ 0x1000) ∧ t = s.setMem (Memory.setAll s.config.font s.mem a bs) := by
  unfold State.memWrite at h
  split at h
  · rename_i hs
    refine ⟨?_, (Option.some.inj h).symm⟩
    simpa using spanInMemory_iff.1 hs
  · cases h

theorem State.memWrite_eq_none {s : State} {a : Nat} {bs : List Byte} :
    s.memWrite a bs = none ↔ bs ≠ [] ∧ 0x1000 < a + bs.length := by
  unfold State.memWrite
  split <;> rename_i hs <;> rw [spanInMemory_iff, List.length_eq_zero_iff] at hs
  · simp only [reduceCtorEq, false_iff, not_and]
    intro h
    have := hs.resolve_left h
    omega
  · simp only [true_iff]
    exact ⟨fun h => hs (.inl h), by have := fun h => hs (.inr h); omega⟩

/-- What a store of bytes leaves in memory. -/
theorem State.byteAt_memWrite {s t : State} {a : Nat} {bs : List Byte} (hs : Memory.wf s.config.font s.mem)
    (h : s.memWrite a bs = some t) (b : Nat) :
    t.byteAt b = if a ≤ b ∧ b < a + bs.length then bs[b - a]?.getD 0 else s.byteAt b := by
  obtain ⟨hb, rfl⟩ := State.memWrite_eq_some h
  unfold State.byteAt
  rcases hb with rfl | hb
  · rw [if_neg (fun h => by simp at h; omega)]
    rfl
  · exact Memory.get_setAll hs hb b

/-- A store keeps memory in its canonical form. -/
theorem State.memWrite_wf {s t : State} {a : Nat} {bs : List Byte} (hs : Memory.wf s.config.font s.mem)
    (h : s.memWrite a bs = some t) : Memory.wf t.config.font t.mem := by
  obtain ⟨hb, rfl⟩ := State.memWrite_eq_some h
  rcases hb with rfl | hb
  · exact hs
  · exact Memory.setAll_wf hs hb

/-! ### The scheduler -/

/-- Resolving a wait (`46_keys.md` R178). -/
theorem State.resolveWait_waiting {s : State} {r : Nibble} (h : s.wait = .waiting r) (k : Nibble) :
    s.resolveWait k = (((s.setReg r (BitVec.ofNat 8 k.toNat)).setWait .idle).setMarker none).advance := by
  simp [State.resolveWait, h]

@[simp] theorem State.resolveWait_idle {s : State} (h : s.wait = .idle) (k : Nibble) : s.resolveWait k = s := by
  simp [State.resolveWait, h]

/-- A cycle is an instruction's effect or the IllegalInstruction fault. -/
theorem cycle_cases (s : State) :
    (∃ i, decode s.fetchWord = .ok i ∧ cycle s = exec i s) ∨
    (∃ e, decode s.fetchWord = .error e ∧ cycle s = .next (s.raise .illegalInstruction s.fetchWord)) := by
  unfold cycle
  cases h : decode s.fetchWord with
  | ok i => exact .inl ⟨i, rfl, rfl⟩
  | error e => exact .inr ⟨e, rfl, rfl⟩

end Sys2Proof.Machine
end

