-- ==== Sys2Proof/Laws/Frames.lean ====
section
/-! SUPPORT. What the shared endings of the instructions do, in the terms of `Safety.lean`: proofs about an instruction
cite these and do not unfold the operations. -/

namespace Sys2Proof.Machine

/-- `V[x] <- v; pc <- pc + 2` writes register x and nothing else. -/
theorem State.writeResult_writesReg (s : State) (x : Nibble) (v : Byte) : WritesReg s (s.writeResult x v) x v where
  result := State.reg_setReg_self s x v
  others := fun _ hk => State.reg_setReg_ne s hk v
  pc := rfl
  memory := fun _ => rfl
  frame := rfl

/-- `V[x] <- v; V[0xF] <- flag; pc <- pc + 2` writes register x, then VF, and nothing else. -/
theorem State.writeResultFlag_writesRegFlag (s : State) (x : Nibble) (v : Byte) (flag : Bool) :
    WritesRegFlag s (s.writeResultFlag x v flag) x v flag where
  flag := State.reg_setReg_self (s.setReg x v) vF (flagByte flag)
  result := fun hx => (State.reg_setReg_ne (s.setReg x v) hx _).trans (State.reg_setReg_self s x v)
  others := fun _ hx hf => (State.reg_setReg_ne (s.setReg x v) hf _).trans (State.reg_setReg_ne s hx v)
  pc := rfl
  memory := fun _ => rfl
  frame := rfl

/-- Setting pc changes only pc. -/
theorem State.setPc_setsPc (s : State) (v : Word) : SetsPc s (s.setPc v) v where
  pc := rfl
  regs := fun _ => rfl
  memory := fun _ => rfl
  frame := rfl

/-- Raising a fault writes the record and nothing else. -/
theorem State.raise_faults (s : State) (code : FaultCode) (i : Instr) : Faults s (s.raise code (encode i)) code i where
  fault := rfl
  regs := fun _ => rfl
  memory := fun _ => rfl
  frame := rfl

/-- Writing a register twice is writing it once. -/
theorem State.setReg_setReg (s : State) (x : Nibble) (v w : Byte) : (s.setReg x v).setReg x w = s.setReg x w := by
  simp [State.setReg, State.setV]

end Sys2Proof.Machine
end

