-- ==== Sys2Proof/Laws/PerInstr.lean ====
section
/-! SUPPORT. A fact about every instruction as syntax, one lemma per constructor: the encoded word matches the row of
the opcode map that bears the instruction's name (`30_encoding.md` R76). -/

namespace Sys2Proof.Laws.EncodeMatchesRow

/-- The word of `i` matches a row of the opcode map, and the row is `i`'s own. -/
def Statement (i : Instr) : Prop := ∃ r ∈ opcodeMap, r.pattern = i.mnemonic ∧ r.matches (encode i) = true

/-- A word of layout C-NNN matches a row that fixes the class alone. -/
theorem matches_addr (p : String) (c : Nibble) (nnn : Addr12) :
    OpRow.matches ⟨p, 0xF000, encodeAddr c 0⟩ (encodeAddr c nnn) = true := by
  simp only [OpRow.matches, beq_iff_eq]
  apply BitVec.eq_of_getLsbD_eq; intro i hi
  simp only [BitVec.getLsbD_and, getLsbD_encodeAddr]; interval_cases i <;> simp

/-- A word of layout C-X-NN matches a row that fixes the class alone. -/
theorem matches_imm (p : String) (c x : Nibble) (nn : Byte) :
    OpRow.matches ⟨p, 0xF000, encodeImm c 0 0⟩ (encodeImm c x nn) = true := by
  simp only [OpRow.matches, beq_iff_eq]
  apply BitVec.eq_of_getLsbD_eq; intro i hi
  simp only [BitVec.getLsbD_and, getLsbD_encodeImm]; interval_cases i <;> simp

/-- A word of layout C-X-NN matches a row that fixes the class and NN. -/
theorem matches_low (p : String) (c x : Nibble) (nn : Byte) :
    OpRow.matches ⟨p, 0xF0FF, encodeImm c 0 nn⟩ (encodeImm c x nn) = true := by
  simp only [OpRow.matches, beq_iff_eq]
  apply BitVec.eq_of_getLsbD_eq; intro i hi
  simp only [BitVec.getLsbD_and, getLsbD_encodeImm]; interval_cases i <;> simp

/-- A word of layout C-X-Y-N matches a row that fixes the class alone. -/
theorem matches_class (p : String) (c x y n : Nibble) :
    OpRow.matches ⟨p, 0xF000, encodeNibbles c 0 0 0⟩ (encodeNibbles c x y n) = true := by
  simp only [OpRow.matches, beq_iff_eq]
  apply BitVec.eq_of_getLsbD_eq; intro i hi
  simp only [BitVec.getLsbD_and, getLsbD_encodeNibbles]; interval_cases i <;> simp

/-- A word of layout C-X-Y-N matches a row that fixes the class and N. -/
theorem matches_nibble (p : String) (c x y n : Nibble) :
    OpRow.matches ⟨p, 0xF00F, encodeNibbles c 0 0 n⟩ (encodeNibbles c x y n) = true := by
  simp only [OpRow.matches, beq_iff_eq]
  apply BitVec.eq_of_getLsbD_eq; intro i hi
  simp only [BitVec.getLsbD_and, getLsbD_encodeNibbles]; interval_cases i <;> simp

theorem cls : Statement .cls := ⟨⟨"00E0", 0xFFFF, 0x00E0⟩, by decide, rfl, by decide⟩
theorem ret : Statement .ret := ⟨⟨"00EE", 0xFFFF, 0x00EE⟩, by decide, rfl, by decide⟩
theorem jp (nnn : Addr12) : Statement (.jp nnn) :=
  ⟨⟨"1NNN", 0xF000, 0x1000⟩, by decide, rfl, matches_addr "1NNN" 0x1 nnn⟩
theorem call (nnn : Addr12) : Statement (.call nnn) :=
  ⟨⟨"2NNN", 0xF000, 0x2000⟩, by decide, rfl, matches_addr "2NNN" 0x2 nnn⟩
theorem seImm (x : Nibble) (nn : Byte) : Statement (.seImm x nn) :=
  ⟨⟨"3XNN", 0xF000, 0x3000⟩, by decide, rfl, matches_imm "3XNN" 0x3 x nn⟩
theorem sneImm (x : Nibble) (nn : Byte) : Statement (.sneImm x nn) :=
  ⟨⟨"4XNN", 0xF000, 0x4000⟩, by decide, rfl, matches_imm "4XNN" 0x4 x nn⟩
theorem seReg (x y n : Nibble) : Statement (.seReg x y n) :=
  ⟨⟨"5XY0", 0xF000, 0x5000⟩, by decide, rfl, matches_class "5XY0" 0x5 x y n⟩
theorem ldImm (x : Nibble) (nn : Byte) : Statement (.ldImm x nn) :=
  ⟨⟨"6XNN", 0xF000, 0x6000⟩, by decide, rfl, matches_imm "6XNN" 0x6 x nn⟩
theorem addImm (x : Nibble) (nn : Byte) : Statement (.addImm x nn) :=
  ⟨⟨"7XNN", 0xF000, 0x7000⟩, by decide, rfl, matches_imm "7XNN" 0x7 x nn⟩
theorem ldReg (x y : Nibble) : Statement (.ldReg x y) :=
  ⟨⟨"8XY0", 0xF00F, 0x8000⟩, by decide, rfl, matches_nibble "8XY0" 0x8 x y 0x0⟩
theorem orReg (x y : Nibble) : Statement (.orReg x y) :=
  ⟨⟨"8XY1", 0xF00F, 0x8001⟩, by decide, rfl, matches_nibble "8XY1" 0x8 x y 0x1⟩
theorem andReg (x y : Nibble) : Statement (.andReg x y) :=
  ⟨⟨"8XY2", 0xF00F, 0x8002⟩, by decide, rfl, matches_nibble "8XY2" 0x8 x y 0x2⟩
theorem xorReg (x y : Nibble) : Statement (.xorReg x y) :=
  ⟨⟨"8XY3", 0xF00F, 0x8003⟩, by decide, rfl, matches_nibble "8XY3" 0x8 x y 0x3⟩
theorem addReg (x y : Nibble) : Statement (.addReg x y) :=
  ⟨⟨"8XY4", 0xF00F, 0x8004⟩, by decide, rfl, matches_nibble "8XY4" 0x8 x y 0x4⟩
theorem subReg (x y : Nibble) : Statement (.subReg x y) :=
  ⟨⟨"8XY5", 0xF00F, 0x8005⟩, by decide, rfl, matches_nibble "8XY5" 0x8 x y 0x5⟩
theorem shrReg (x y : Nibble) : Statement (.shrReg x y) :=
  ⟨⟨"8XY6", 0xF00F, 0x8006⟩, by decide, rfl, matches_nibble "8XY6" 0x8 x y 0x6⟩
theorem subnReg (x y : Nibble) : Statement (.subnReg x y) :=
  ⟨⟨"8XY7", 0xF00F, 0x8007⟩, by decide, rfl, matches_nibble "8XY7" 0x8 x y 0x7⟩
theorem shlReg (x y : Nibble) : Statement (.shlReg x y) :=
  ⟨⟨"8XYE", 0xF00F, 0x800E⟩, by decide, rfl, matches_nibble "8XYE" 0x8 x y 0xE⟩
theorem sneReg (x y n : Nibble) : Statement (.sneReg x y n) :=
  ⟨⟨"9XY0", 0xF000, 0x9000⟩, by decide, rfl, matches_class "9XY0" 0x9 x y n⟩
theorem ldI (nnn : Addr12) : Statement (.ldI nnn) :=
  ⟨⟨"ANNN", 0xF000, 0xA000⟩, by decide, rfl, matches_addr "ANNN" 0xA nnn⟩
theorem jpV0 (nnn : Addr12) : Statement (.jpV0 nnn) :=
  ⟨⟨"BNNN", 0xF000, 0xB000⟩, by decide, rfl, matches_addr "BNNN" 0xB nnn⟩
theorem rnd (x : Nibble) (nn : Byte) : Statement (.rnd x nn) :=
  ⟨⟨"CXNN", 0xF000, 0xC000⟩, by decide, rfl, matches_imm "CXNN" 0xC x nn⟩
theorem drw (x y n : Nibble) : Statement (.drw x y n) :=
  ⟨⟨"DXYN", 0xF000, 0xD000⟩, by decide, rfl, matches_class "DXYN" 0xD x y n⟩
theorem skp (x : Nibble) : Statement (.skp x) :=
  ⟨⟨"EX9E", 0xF0FF, 0xE09E⟩, by decide, rfl, matches_low "EX9E" 0xE x 0x9E⟩
theorem sknp (x : Nibble) : Statement (.sknp x) :=
  ⟨⟨"EXA1", 0xF0FF, 0xE0A1⟩, by decide, rfl, matches_low "EXA1" 0xE x 0xA1⟩
theorem ldVxDT (x : Nibble) : Statement (.ldVxDT x) :=
  ⟨⟨"FX07", 0xF0FF, 0xF007⟩, by decide, rfl, matches_low "FX07" 0xF x 0x07⟩
theorem ldVxK (x : Nibble) : Statement (.ldVxK x) :=
  ⟨⟨"FX0A", 0xF0FF, 0xF00A⟩, by decide, rfl, matches_low "FX0A" 0xF x 0x0A⟩
theorem ldDTVx (x : Nibble) : Statement (.ldDTVx x) :=
  ⟨⟨"FX15", 0xF0FF, 0xF015⟩, by decide, rfl, matches_low "FX15" 0xF x 0x15⟩
theorem ldSTVx (x : Nibble) : Statement (.ldSTVx x) :=
  ⟨⟨"FX18", 0xF0FF, 0xF018⟩, by decide, rfl, matches_low "FX18" 0xF x 0x18⟩
theorem addI (x : Nibble) : Statement (.addI x) :=
  ⟨⟨"FX1E", 0xF0FF, 0xF01E⟩, by decide, rfl, matches_low "FX1E" 0xF x 0x1E⟩
theorem ldF (x : Nibble) : Statement (.ldF x) :=
  ⟨⟨"FX29", 0xF0FF, 0xF029⟩, by decide, rfl, matches_low "FX29" 0xF x 0x29⟩
theorem ldB (x : Nibble) : Statement (.ldB x) :=
  ⟨⟨"FX33", 0xF0FF, 0xF033⟩, by decide, rfl, matches_low "FX33" 0xF x 0x33⟩
theorem storeRegs (x : Nibble) : Statement (.storeRegs x) :=
  ⟨⟨"FX55", 0xF0FF, 0xF055⟩, by decide, rfl, matches_low "FX55" 0xF x 0x55⟩
theorem loadRegs (x : Nibble) : Statement (.loadRegs x) :=
  ⟨⟨"FX65", 0xF0FF, 0xF065⟩, by decide, rfl, matches_low "FX65" 0xF x 0x65⟩

end Sys2Proof.Laws.EncodeMatchesRow
end

