-- ==== Sys2Proof/Laws/Tick.lean ====
section
/-! SUPPORT. What the keys, the start of a tick and a step between ticks do, case by case. -/

namespace Sys2Proof.Machine

/-! ### Keys -/

theorem State.key_setKey (s : State) (k j : Nibble) (b : Bool) :
    (s.setKey k b).key j = if j = k then b else s.key j := by
  unfold State.key State.setKey
  simp only [State.setKeys_keys, Vector.getElem_set]
  by_cases h : j = k
  · simp [h]
  · have : k.toNat ≠ j.toNat := fun h' => h (BitVec.eq_of_toNat_eq h'.symm)
    simp [h, this]

@[simp] theorem State.key_setKey_self (s : State) (k : Nibble) (b : Bool) : (s.setKey k b).key k = b := by
  simp [State.key_setKey]

theorem State.key_setKey_ne (s : State) {k j : Nibble} (h : j ≠ k) (b : Bool) : (s.setKey k b).key j = s.key j := by
  simp [State.key_setKey, h]

/-- A release that finds its own mark resolves the wait, if there is one (`46_keys.md` R180). -/
theorem State.keyUp_of_marker {s : State} {k : Nibble} (h : s.marker = some k) :
    s.keyUp k = (s.setKey k false).resolveWait k := if_pos h

/-- Any other release, and a release while idle, only releases the key. -/
theorem State.keyUp_of_no_match {s : State} {k : Nibble} (h : s.wait = .idle ∨ s.marker ≠ some k) :
    s.keyUp k = s.setKey k false := by
  unfold State.keyUp
  split
  · rename_i hm
    exact State.resolveWait_idle (s := s.setKey k false) (h.resolve_right (fun hn => hn hm)) k
  · rfl

theorem State.mem_pressedKeys {s : State} {k : Nibble} : k ∈ s.pressedKeys ↔ s.key k = true := by
  simp only [State.pressedKeys, List.mem_filter, List.mem_map, List.mem_range, and_iff_right_iff_imp]
  exact fun _ => ⟨k.toNat, k.isLt, by simp⟩

/-- The poll's choice is one of the pressed keys, whatever the free value. -/
theorem pollSelect_mem {l : List Nibble} (h : l ≠ []) (c : Nat) : ∃ k ∈ l, pollSelect l c = some k := by
  match l with
  | [k] => exact ⟨k, by simp, rfl⟩
  | k :: m :: ks =>
    have hc : c % (ks.length + 2) < (k :: m :: ks).length := Nat.mod_lt _ (by simp)
    exact ⟨_, List.getElem_mem hc, List.getElem?_eq_getElem hc⟩

/-! ### The start of a tick (`47_scheduler_host.md` R191, R192) -/

theorem State.beginTick_of_fault {s : State} (h : s.fault ≠ none) : s.beginTick = s.setPhase .finish := by
  unfold State.beginTick
  split <;> first | rfl | contradiction

theorem State.beginTick_of_waiting {s : State} {r : Nibble} (h : s.fault = none) (hw : s.wait = .waiting r) :
    s.beginTick = s.poll.setPhase .finish := by
  unfold State.beginTick
  split <;> simp_all

theorem State.beginTick_of_idle {s : State} (h : s.fault = none) (hw : s.wait = .idle) :
    s.beginTick = s.setPhase (.batch 8) := by
  unfold State.beginTick
  split <;> simp_all

/-- The end of a tick (`45_timers.md` R163, `44_display.md` R143). -/
theorem State.finishTick_eq (s : State) : s.finishTick = { s with
    DT := countDown s.DT, ST := countDown s.ST, out := s.out ++ timerOutputs s.ST s.mute ++ [.frame s.FB],
    phase := .between } := rfl

theorem countDown_toNat (v : Byte) : (countDown v).toNat = v.toNat - 1 := by
  unfold countDown
  split
  · simp_all
  · rename_i h
    have h0 : v.toNat ≠ 0 := fun h' => h (BitVec.eq_of_toNat_eq h')
    have hv := v.isLt
    simp [BitVec.toNat_sub]
    omega

/-! ### A step, by phase -/

theorem step_of_event {s : State} (hp : s.phase = .between) {e : HostEvent} {es : List HostEvent}
    (hi : s.inputs = e :: es) : step s = .next (((s.setOut []).setInputs es).takeEvent e) := by
  simp [step, hp, State.betweenTicks, hi]

theorem step_of_no_event {s : State} (hp : s.phase = .between) (hi : s.inputs = []) :
    step s = .next (s.setOut []).strobe := by
  simp [step, hp, State.betweenTicks, hi]

/-- A tick that is due on a running block starts, whether the scheduler or a strobe of the host brings it. -/
theorem step_of_tickDue {s : State} {es : List HostEvent} (h : s.tickDue es) (hr : s.running = true) :
    step s = .next ((s.setOut []).setInputs es).beginTick := by
  obtain ⟨hp, ⟨hi, rfl⟩ | hi⟩ := h
  · have hs : (s.setOut []).setInputs [] = s.setOut [] := by rw [← hi]; rfl
    rw [step_of_no_event hp hi, hs]
    exact congrArg _ (if_pos hr)
  · rw [step_of_event hp hi]
    exact congrArg _ (if_pos hr)

theorem step_of_batch {s : State} {left : Nat} (hp : s.phase = .batch left) :
    step s = batchStep left (s.setOut []) := by
  simp [step, hp]

theorem step_of_finish {s : State} (hp : s.phase = .finish) : step s = .next (s.setOut []).finishTick := by
  simp [step, hp]

end Sys2Proof.Machine
end

