-- ==== Sys2Proof/Tests/Slice0.lean ====
section
/-! SUPPORT. The model's own tests, few and small. Expected values are the vectors of `spec/95_test_vectors.md`, whose
ids stand in the comments, and words written out from the patterns of `spec/30_encoding.md` R76. After them, a witness
for the hypotheses of every statement of `Obligations.lean` that has some. -/

namespace Sys2Proof.Tests

open Sys2Proof Sys2Proof.Machine

set_option Elab.async false


/-! ### Well-formed and ill-formed -/

/-- FD1: the field set of 0x6A42. -/
def fd1 : Fields := ⟨0x6A42, 0x6, 0xA, 0x4, 0x2, 0x42, 0xA42⟩

theorem test_fields_of_FD1 : fieldsOf 0x6A42 = fd1 := by decide
theorem test_fields_FD1_wellFormed : fd1.wellFormed := by decide
theorem test_ill_formed_class : ¬Fields.wellFormed { fd1 with c := 0x7 } := by decide
theorem test_ill_formed_x : ¬Fields.wellFormed { fd1 with x := 0x4 } := by decide
theorem test_ill_formed_y : ¬Fields.wellFormed { fd1 with y := 0xA } := by decide
theorem test_ill_formed_n : ¬Fields.wellFormed { fd1 with n := 0x4 } := by decide
theorem test_ill_formed_nn : ¬Fields.wellFormed { fd1 with nn := 0x24 } := by decide
theorem test_ill_formed_nnn : ¬Fields.wellFormed { fd1 with nnn := 0x242 } := by decide
theorem test_legal_word : legalWord 0x6A42 = true := by decide
theorem test_illegal_class0 : legalWord 0x00E1 = false := by decide
theorem test_illegal_class8 : legalWord 0x8008 = false := by decide
theorem test_illegal_classE : legalWord 0xE19F = false := by decide
theorem test_illegal_classF : legalWord 0xF10B = false := by decide

/-! ### Decoding: words written out bit by bit from R76 -/

theorem test_decode_00E0 : decode 0b0000_0000_1110_0000 = .ok .cls := by decide
theorem test_decode_00EE : decode 0b0000_0000_1110_1110 = .ok .ret := by decide
theorem test_decode_1NNN : decode 0b0001_0010_0011_0100 = .ok (.jp 0x234) := by decide
theorem test_decode_2NNN : decode 0b0010_1111_0000_0001 = .ok (.call 0xF01) := by decide
theorem test_decode_3XNN : decode 0b0011_0011_0001_0000 = .ok (.seImm 0x3 0x10) := by decide
theorem test_decode_4XNN : decode 0b0100_0011_1000_0001 = .ok (.sneImm 0x3 0x81) := by decide
theorem test_decode_5XY0 : decode 0b0101_0001_0010_0000 = .ok (.seReg 0x1 0x2 0x0) := by decide
theorem test_decode_5XY1 : decode 0b0101_0001_0010_0001 = .ok (.seReg 0x1 0x2 0x1) := by decide
theorem test_decode_6XNN : decode 0b0110_1010_0100_0010 = .ok (.ldImm 0xA 0x42) := by decide
theorem test_decode_7XNN : decode 0b0111_0010_1111_1111 = .ok (.addImm 0x2 0xFF) := by decide
theorem test_decode_8XY0 : decode 0b1000_0001_0010_0000 = .ok (.ldReg 0x1 0x2) := by decide
theorem test_decode_8XY1 : decode 0b1000_0001_0010_0001 = .ok (.orReg 0x1 0x2) := by decide
theorem test_decode_8XY2 : decode 0b1000_0001_0010_0010 = .ok (.andReg 0x1 0x2) := by decide
theorem test_decode_8XY3 : decode 0b1000_0001_0010_0011 = .ok (.xorReg 0x1 0x2) := by decide
theorem test_decode_8XY4 : decode 0b1000_0001_0010_0100 = .ok (.addReg 0x1 0x2) := by decide
theorem test_decode_8XY5 : decode 0b1000_0001_0010_0101 = .ok (.subReg 0x1 0x2) := by decide
theorem test_decode_8XY6 : decode 0b1000_0001_0010_0110 = .ok (.shrReg 0x1 0x2) := by decide
theorem test_decode_8XY7 : decode 0b1000_0001_0010_0111 = .ok (.subnReg 0x1 0x2) := by decide
theorem test_decode_8XYE : decode 0b1000_0001_0010_1110 = .ok (.shlReg 0x1 0x2) := by decide
theorem test_decode_9XYF : decode 0b1001_0001_0010_1111 = .ok (.sneReg 0x1 0x2 0xF) := by decide
theorem test_decode_ANNN : decode 0b1010_0010_1111_0000 = .ok (.ldI 0x2F0) := by decide
theorem test_decode_BNNN : decode 0b1011_0011_0000_0000 = .ok (.jpV0 0x300) := by decide
theorem test_decode_CXNN : decode 0b1100_0011_0000_1111 = .ok (.rnd 0x3 0x0F) := by decide
theorem test_decode_DXYN : decode 0b1101_0001_0010_0011 = .ok (.drw 0x1 0x2 0x3) := by decide
theorem test_decode_EX9E : decode 0b1110_0101_1001_1110 = .ok (.skp 0x5) := by decide
theorem test_decode_EXA1 : decode 0b1110_0101_1010_0001 = .ok (.sknp 0x5) := by decide
theorem test_decode_FX07 : decode 0b1111_0011_0000_0111 = .ok (.ldVxDT 0x3) := by decide
theorem test_decode_FX0A : decode 0b1111_0011_0000_1010 = .ok (.ldVxK 0x3) := by decide
theorem test_decode_FX15 : decode 0b1111_0011_0001_0101 = .ok (.ldDTVx 0x3) := by decide
theorem test_decode_FX18 : decode 0b1111_0011_0001_1000 = .ok (.ldSTVx 0x3) := by decide
theorem test_decode_FX1E : decode 0b1111_0011_0001_1110 = .ok (.addI 0x3) := by decide
theorem test_decode_FX29 : decode 0b1111_0011_0010_1001 = .ok (.ldF 0x3) := by decide
theorem test_decode_FX33 : decode 0b1111_0011_0011_0011 = .ok (.ldB 0x3) := by decide
theorem test_decode_FX55 : decode 0b1111_0011_0101_0101 = .ok (.storeRegs 0x3) := by decide
theorem test_decode_FX65 : decode 0b1111_0011_0110_0101 = .ok (.loadRegs 0x3) := by decide
theorem test_reject_class0 : decode 0x0123 = .error (.illegalClass0 0x0123) := by decide
theorem test_reject_class8 : decode 0x800F = .error (.illegalClass8 0x800F) := by decide
theorem test_reject_classE : decode 0xE0A2 = .error (.illegalClassE 0xE0A2) := by decide
theorem test_reject_classF : decode 0xF030 = .error (.illegalClassF 0xF030) := by decide
/-- The bytes in memory order are high, then low; missing bytes are 0 (FD3). -/
theorem test_decode_bytes : decodeBytes [0x6A, 0x42, 0x99] = .ok (.ldImm 0xA 0x42, [0x99]) := by decide
theorem test_decode_one_byte : decodeBytes [0x12] = .ok (.jp 0x200, []) := by decide
theorem test_decode_table_word : decodeTableWord 16 0x8124 = some (.addReg 0x1 0x2) := by decide

/-! ### One instruction each, at 0x200 or the address named -/

/-- The state with these registers and pc 0x200. -/
def withRegs : List (Nibble × Byte) → State
  | [] => State.reset
  | (r, v) :: rs => (withRegs rs).setReg r v

/-- `p` holds after one step that runs the word `op` at the state's pc. -/
def runs (s : State) (op : Nat) (p : State → Bool) : Bool :=
  match step (s.withFetchWord 16 op) with
  | .next t => p t
  | _ => false

/-- CF7. -/
theorem test_ret : runs { State.reset with pc := 0x30A, stack := [0x204] } 0x00EE
    (fun t => t.pc == 0x206 && t.stack == []) = true := by decide +kernel
/-- CF8. -/
theorem test_ret_empty : runs State.reset 0x00EE
    (fun t => t.fault == some ⟨.stackUnderflow, 0x200, 0x00EE⟩ && t.pc == 0x200) = true := by decide +kernel
/-- CF1. -/
theorem test_jp : runs State.reset 0x1234 (fun t => t.pc == 0x234) = true := by decide +kernel
/-- CF5. -/
theorem test_call_fifteen : runs { State.reset with pc := 0x204, stack := List.replicate 15 0x300 } 0x2300
    (fun t => t.pc == 0x300 && t.stack == List.replicate 15 0x300 ++ [0x204]) = true := by decide +kernel
/-- CF6. -/
theorem test_call_full : runs { State.reset with stack := List.replicate 16 0x300 } 0x2300
    (fun t => t.pc == 0x200 && t.fault == some ⟨.stackOverflow, 0x200, 0x2300⟩) = true := by decide +kernel
/-- CF10. -/
theorem test_se_imm : runs (withRegs [(0x3, 0x10)]) 0x3310 (fun t => t.pc == 0x204) = true := by decide +kernel
/-- CF13. -/
theorem test_sne_imm : runs (withRegs [(0x3, 0x10)]) 0x4310 (fun t => t.pc == 0x202) = true := by decide +kernel
/-- Section 2.2, legal corner words. -/
theorem test_se_reg_low_nibble : runs (withRegs [(0x1, 7), (0x2, 7)]) 0x5121
    (fun t => t.pc == 0x204) = true := by decide +kernel
/-- CF17. -/
theorem test_se_reg : runs (withRegs [(0x1, 7), (0x2, 8)]) 0x5120 (fun t => t.pc == 0x202) = true := by decide +kernel
/-- CF18. -/
theorem test_sne_reg : runs (withRegs [(0x1, 7), (0x2, 8)]) 0x9120 (fun t => t.pc == 0x204) = true := by decide +kernel
/-- CF21. -/
theorem test_jp_v0 : runs (withRegs [(0x0, 0xFF)]) 0xBFFF (fun t => t.pc == 0x10FE) = true := by decide +kernel
/-- S1. -/
theorem test_ld_imm : runs State.reset 0x6A42 (fun t => t.reg 0xA == 0x42 && t.pc == 0x202) = true := by decide +kernel
/-- AL2. -/
theorem test_add_imm : runs (withRegs [(0x2, 0xFF)]) 0x7202
    (fun t => t.reg 0x2 == 0x01 && t.reg 0xF == 0) = true := by decide +kernel
/-- AL4. -/
theorem test_ld_reg : runs (withRegs [(0x1, 0x33)]) 0x8010 (fun t => t.reg 0x0 == 0x33) = true := by decide +kernel
/-- AL5. -/
theorem test_or : runs (withRegs [(0x0, 0xA0), (0x1, 0x05), (0xF, 0x77)]) 0x8011
    (fun t => t.reg 0x0 == 0xA5 && t.reg 0xF == 0x77) = true := by decide +kernel
/-- AL6. -/
theorem test_and : runs (withRegs [(0x0, 0xA5), (0x1, 0x0F), (0xF, 0x77)]) 0x8012
    (fun t => t.reg 0x0 == 0x05 && t.reg 0xF == 0x77) = true := by decide +kernel
/-- AL7. -/
theorem test_xor : runs (withRegs [(0x0, 0xA5), (0x1, 0xFF), (0xF, 0x77)]) 0x8013
    (fun t => t.reg 0x0 == 0x5A && t.reg 0xF == 0x77) = true := by decide +kernel
/-- AL10. -/
theorem test_add_into_vf : runs (withRegs [(0xF, 0x10), (0x1, 0xF5)]) 0x8F14
    (fun t => t.reg 0xF == 1) = true := by decide +kernel
/-- AL11. -/
theorem test_add_from_vf : runs (withRegs [(0x1, 0x02), (0xF, 0xFF)]) 0x81F4
    (fun t => t.reg 0x1 == 0x01 && t.reg 0xF == 1) = true := by decide +kernel
/-- S4. -/
theorem test_sub_borrow : runs (withRegs [(0x0, 3), (0x1, 5)]) 0x8015
    (fun t => t.reg 0x0 == 0xFE && t.reg 0xF == 0) = true := by decide +kernel
/-- AL12. -/
theorem test_sub_into_vf : runs (withRegs [(0xF, 5), (0x1, 3)]) 0x8F15
    (fun t => t.reg 0xF == 1) = true := by decide +kernel
/-- S5. -/
theorem test_shr : runs (withRegs [(0x0, 0x03), (0x1, 0x80)]) 0x8016
    (fun t => t.reg 0x0 == 0x40 && t.reg 0xF == 0 && t.reg 0x1 == 0x80) = true := by decide +kernel
/-- AL21. -/
theorem test_shr_into_vf : runs (withRegs [(0xF, 0x80), (0x1, 0x03)]) 0x8F16
    (fun t => t.reg 0xF == 1) = true := by decide +kernel
/-- AL16. -/
theorem test_subn_equal : runs State.reset 0x8017
    (fun t => t.reg 0x0 == 0 && t.reg 0xF == 1) = true := by decide +kernel
/-- AL15. -/
theorem test_subn_borrow : runs (withRegs [(0x0, 5), (0x1, 3)]) 0x8017
    (fun t => t.reg 0x0 == 0xFE && t.reg 0xF == 0) = true := by decide +kernel
/-- AL23. -/
theorem test_shl : runs (withRegs [(0x1, 0x81)]) 0x801E
    (fun t => t.reg 0x0 == 0x02 && t.reg 0xF == 1) = true := by decide +kernel
/-- AL28. -/
theorem test_shl_from_vf : runs (withRegs [(0xF, 0x81)]) 0x81FE
    (fun t => t.reg 0x1 == 0x02 && t.reg 0xF == 1) = true := by decide +kernel
/-- AL29. -/
theorem test_rnd_mask : (State.reset.writeMasked 0x3 0xA5 0x0F).reg 0x3 = 0x05 := by decide +kernel
/-- IM1. -/
theorem test_ld_i : runs State.reset 0xA2F0 (fun t => t.I == 0x2F0) = true := by decide +kernel
/-- IM4. -/
theorem test_add_i : runs { withRegs [(0x0, 0xFF)] with I := 0xFF00 } 0xF01E
    (fun t => t.I == 0xFFFF && t.fault == none) = true := by decide +kernel
/-- IM5. -/
theorem test_add_i_fault : runs { withRegs [(0x0, 0x01)] with I := 0xFFFF } 0xF01E
    (fun t => t.I == 0xFFFF && t.fault == some ⟨.indexOverflow, 0x200, 0xF01E⟩) = true := by decide +kernel
/-- IM10. -/
theorem test_ld_f : runs (withRegs [(0x0, 0xFF)]) 0xF029 (fun t => t.I == 0x54B) = true := by decide +kernel
/-- IM17. -/
theorem test_bcd : runs { withRegs [(0x0, 123)] with I := 0xFFD } 0xF033
    (fun t => t.byteAt 0xFFD == 1 && t.byteAt 0xFFE == 2 && t.byteAt 0xFFF == 3) = true := by decide +kernel
/-- IM18. -/
theorem test_bcd_fault : runs { withRegs [(0x0, 1)] with I := 0xFFE } 0xF033
    (fun t => t.fault == some ⟨.memoryFault, 0x200, 0xF033⟩ && t.byteAt 0xFFE == 0) = true := by decide +kernel
/-- IM20. -/
theorem test_store_regs : runs { withRegs [(0x0, 1), (0x1, 2), (0x2, 3)] with I := 0xFFD } 0xF255
    (fun t => t.byteAt 0xFFD == 1 && t.byteAt 0xFFF == 3 && t.I == 0xFFD) = true := by decide +kernel
/-- IM21. -/
theorem test_store_regs_fault : runs { withRegs [(0x0, 1)] with I := 0xFFD } 0xF355
    (fun t => t.fault == some ⟨.memoryFault, 0x200, 0xF355⟩ && t.byteAt 0xFFD == 0) = true := by decide +kernel
/-- IM23. -/
theorem test_load_regs : runs { withRegs [(0x2, 9)] with I := 0x300, mem := [(0x300, 0x10), (0x301, 0x11), (0x302, 0x12)] }
    0xF165 (fun t => t.reg 0x0 == 0x10 && t.reg 0x1 == 0x11 && t.reg 0x2 == 9) = true := by decide +kernel
/-- IM24. -/
theorem test_load_regs_fault : runs { State.reset with I := 0x1000 } 0xF065
    (fun t => t.fault == some ⟨.memoryFault, 0x200, 0xF065⟩) = true := by decide +kernel
/-- DR16. -/
theorem test_cls : runs { State.reset with FB := State.reset.FB.flip 3 4 } 0x00E0
    (fun t => !t.FB.pixel 3 4) = true := by decide +kernel

/-- The start of DR3: the sprite 80 80 at 0x300, pixel (0, 0) on, VF = 0x55. -/
def dr3 (mode : CollisionMode) : State :=
  { withRegs [(0xF, 0x55)] with
    I := 0x300, mem := [(0x300, 0x80), (0x301, 0x80)], FB := State.reset.FB.flip 0 0,
    config := { Config.standard with collisionMode := mode } }

/-- DR3, S6. -/
theorem test_draw_last_bit : runs (dr3 .lastBit) 0xD012
    (fun t => !t.FB.pixel 0 0 && t.FB.pixel 0 1 && !t.FB.pixel 1 0 && t.reg 0xF == 0) = true := by decide +kernel
/-- DR3, S6, in ANY_BIT. -/
theorem test_draw_any_bit : runs (dr3 .anyBit) 0xD012
    (fun t => !t.FB.pixel 0 0 && t.FB.pixel 0 1 && !t.FB.pixel 1 0 && t.reg 0xF == 1) = true := by decide +kernel
/-- TM1. -/
theorem test_ld_dt : runs { State.reset with DT := 0x3C } 0xF307 (fun t => t.reg 0x3 == 0x3C) = true := by decide +kernel
/-- TM2. -/
theorem test_set_dt : runs (withRegs [(0x3, 5)]) 0xF315 (fun t => t.DT == 5) = true := by decide +kernel
/-- TM3. -/
theorem test_set_st : runs (withRegs [(0x3, 2)]) 0xF318 (fun t => t.ST == 2) = true := by decide +kernel
/-- KY5. -/
theorem test_skp : runs (withRegs [(0x0, 0x0F)]) 0xE09E (fun t => t.pc == 0x202) = true := by decide +kernel
/-- KY6. -/
theorem test_skp_stall : runs (withRegs [(0x0, 0x10)]) 0xE09E (fun t => t.pc == 0x200) = true := by decide +kernel
/-- KY4. -/
theorem test_sknp : runs ((withRegs [(0x5, 0x0A)]).setKey 0xA true) 0xE5A1 (fun t => t.pc == 0x202) = true := by
  decide +kernel
/-- KY8. -/
theorem test_sknp_stall : runs (withRegs [(0x0, 0x1A)]) 0xE0A1 (fun t => t.pc == 0x200) = true := by decide +kernel
/-- S10: the key-wait ends the batch with pc unchanged. -/
theorem test_key_wait : runs State.reset 0xF30A
    (fun t => t.wait == .waiting 0x3 && t.pc == 0x200 && t.phase == .finish) = true := by decide +kernel

/-! ### Fetch, faults, ticks and the host -/

/-- FD2: an odd pc is no fault. -/
theorem test_odd_pc : runs { State.reset with pc := 0x201 } 0x6A42
    (fun t => t.reg 0xA == 0x42 && t.pc == 0x203) = true := by decide +kernel
/-- FD3: the second byte past 0xFFF reads 0. -/
theorem test_fetch_last_byte : State.fetchWord { State.reset with pc := 0xFFF, mem := [(0xFFF, 0x12)] } = 0x1200 := by
  decide +kernel
/-- Section 2.2. -/
theorem test_illegal_word : runs State.reset 0xF10B
    (fun t => t.fault == some ⟨.illegalInstruction, 0x200, 0xF10B⟩ && t.pc == 0x200 && t.phase == .finish) = true := by
  decide +kernel
/-- FD6: the first cycle of a block with nothing loaded. -/
theorem test_nothing_loaded : State.reset.fetchWord = 0x0000 := by decide +kernel
/-- RS1: the first glyph of the font. -/
theorem test_font_at_reset : (List.range 5).map (fun r => State.reset.byteAt (0x050 + r)) =
    [0xF0, 0x90, 0x90, 0x90, 0xF0] := by decide +kernel
/-- TM3: the tick in which ST falls from 1 to 0. -/
theorem test_timer_elapsed : (State.timerPhase { State.reset with ST := 1 }).out =
    [.beepTrigger, .audible true, .timerElapsed] := by decide +kernel
/-- TM6: the delay timer gives no output. -/
theorem test_delay_timer_silent : (State.timerPhase { State.reset with DT := 1 }).out = [] := by decide +kernel
/-- KY10. -/
theorem test_key_up_no_match : (((State.setWait State.reset (.waiting 0x2)).keyDown 0x1).keyDown 0x2).keyUp 0x1 =
    (State.setWait State.reset (.waiting 0x2)).keyDown 0x2 := by decide +kernel
/-- SH7. -/
theorem test_load_too_long : State.reset.loadBuffer (List.replicate 0xE01 1) = State.reset := by
  unfold State.loadBuffer
  rw [List.length_replicate, if_neg (by decide)]
/-- Section 2.6, Render: pixel (0, 1) is at bytes 256 to 259. -/
theorem test_render_row_one : (renderBytes Config.standard (Framebuffer.blank.flip 0 1))[259]? = some 0xFF := by
  decide +kernel

/-! ### Witnesses: states and operands that meet the hypotheses of the statements of `Obligations.lean`, each clause at
a boundary value of its range -/

/-- A block inside a batch with `left + 1` cycles to run, at pc. -/
def inBatch (left : Nat) (pc : Word) : State := { State.reset with phase := .batch (left + 1), running := true, pc := pc }

/-- A running block between ticks. -/
def running : State := { State.reset with running := true }

/-- A block between ticks with the events `es` pending. -/
def pending (es : List HostEvent) : State := { State.reset with inputs := es }

/-- A block between ticks that has recorded a fault: 00EE at 0x200 on an empty stack. -/
def faulted : State := { State.reset with fault := some ⟨.stackUnderflow, 0x0200, 0x00EE⟩ }

theorem witness_EncodeOfDecodeIsTheWord : decode 0x6A42 = .ok (.ldImm 0xA 0x42) := by decide
theorem witness_DecoderSelectsTheMatchingRow : (⟨"6XNN", 0xF000, 0x6000⟩ : OpRow) ∈ opcodeMap := by decide
theorem witness_Fetch : (0xFFE : Word).toNat < 0xFFF ∧ (0xFFF : Word).toNat = 0xFFF ∧ 0x1000 ≤ (0x1000 : Word).toNat := by
  decide
/-- At the last and at the first cycle of a batch; the word at 0x051 is 0x9090, out of the font's glyph 0. -/
theorem witness_StepRunsTheDecodedInstruction : ∀ left ∈ [0, 7],
    (inBatch left 0x051).phase = .batch (left + 1) ∧ (inBatch left 0x051).wait = .idle ∧
      (inBatch left 0x051).fault = none ∧ decode (inBatch left 0x051).fetchWord = .ok (.sneReg 0x0 0x9 0x0) := by
  decide +kernel
theorem witness_StepRaisesIllegalInstruction : (inBatch 7 0x200).phase = .batch 8 ∧ (inBatch 7 0x200).wait = .idle ∧
    (inBatch 7 0x200).fault = none ∧
    decode (inBatch 7 0x200).fetchWord = .error (.illegalClass0 0x0000) := by decide +kernel
theorem witness_RunningOffTheEnd : (inBatch 0 0x1000).phase = .batch 1 ∧ (inBatch 0 0x1000).wait = .idle ∧
    (inBatch 0 0x1000).fault = none ∧ 0x1000 ≤ (inBatch 0 0x1000).pc.toNat := by decide
/-- The last byte of memory. -/
theorem witness_StoredBytesAreFetchedNext : ∃ t, Memory.wf State.reset.config.font State.reset.mem ∧
    State.reset.memWrite 0xFFF [0x12] = some t ∧ 0 < [(0x12 : Byte)].length := by
  exact ⟨_, by decide, rfl, by decide⟩
theorem witness_CallPushes : ({ State.reset with stack := List.replicate 15 0x300 } : State).stack.length < 16 ∧
    16 ≤ ({ State.reset with stack := List.replicate 16 0x300 } : State).stack.length := by decide
theorem witness_Return : ({ State.reset with stack := [0x204] } : State).stack = [] ++ [0x204] ∧
    State.reset.stack = [] := by decide
theorem witness_CallThenReturn : State.reset.stack.length < 16 := by decide
/-- IM4 and IM5. -/
theorem witness_AddToIndex :
    ({ withRegs [(0x0, 0xFF)] with I := 0xFF00 } : State).I.toNat + ((withRegs [(0x0, 0xFF)]).reg 0x0).toNat ≤ 0xFFFF ∧
    0xFFFF < ({ withRegs [(0x0, 0x01)] with I := 0xFFFF } : State).I.toNat + ((withRegs [(0x0, 0x01)]).reg 0x0).toNat := by
  decide +kernel

/-- The block after construction with I = v. -/
def atI (v : Word) : State := { State.reset with I := v }

/-- IM17 and IM18. -/
theorem witness_DecimalDigits : Memory.wf (atI 0xFFD).config.font (atI 0xFFD).mem ∧
    Memory.wf (atI 0xFFE).config.font (atI 0xFFE).mem ∧ (atI 0xFFD).I.toNat + 2 ≤ 0xFFF ∧
    0xFFF < (atI 0xFFE).I.toNat + 2 := by decide
/-- IM20 and IM21. -/
theorem witness_RegistersAreStored : Memory.wf (atI 0xFFD).config.font (atI 0xFFD).mem ∧
    (atI 0xFFD).I.toNat + (0x2 : Nibble).toNat ≤ 0xFFF ∧ 0xFFF < (atI 0xFFD).I.toNat + (0x3 : Nibble).toNat := by decide
/-- X = F at the last legal I, and IM24. -/
theorem witness_RegistersAreLoaded : (atI 0xFF0).I.toNat + (0xF : Nibble).toNat ≤ 0xFFF ∧
    0xFFF < (atI 0x1000).I.toNat + (0x0 : Nibble).toNat := by decide
theorem witness_StoreThenLoad : ∃ t, Memory.wf (atI 0xFF0).config.font (atI 0xFF0).mem ∧
    (atI 0xFF0).I.toNat + (0xF : Nibble).toNat ≤ 0xFFF ∧ exec (.storeRegs 0xF) (atI 0xFF0) = .next t ∧
    t.mem = t.mem ∧ t.config = t.config ∧ t.I = t.I := by
  exact ⟨_, by decide, by decide, rfl, rfl, rfl, rfl⟩
/-- n = 0 past the end of memory, the last legal I, and one past it (DR14). -/
theorem witness_DrawInverts : (0x0 : Nibble).toNat = 0 ∧ (atI 0xFFE).I.toNat + (0x2 : Nibble).toNat ≤ 0x1000 ∧
    0 < (0x2 : Nibble).toNat ∧ 0x1000 < (atI 0xFFF).I.toNat + (0x2 : Nibble).toNat := by decide

/-- The sprite of a draw, as the statements name it. -/
def spriteOf (s : State) (x y n : Nibble) : List (Nat × Nat) :=
  spritePixels ((s.reg x).toNat % 64) ((s.reg y).toNat % 32)
    ((List.range n.toNat).map fun r => s.byteAt (s.I.toNat + r))

/-- DR11 (no set bit) and DR3 in each mode; the sprite of DR3 is the pixels (0, 0), (0, 1). -/
theorem witness_DrawSetsTheCollisionFlag :
    (∃ t, exec (.drw 0x0 0x1 0x0) (dr3 .lastBit) = .next t ∧ (dr3 .lastBit).config.collisionMode = .lastBit ∧
      spriteOf (dr3 .lastBit) 0x0 0x1 0x0 = []) ∧
    (∃ t, exec (.drw 0x0 0x1 0x2) (dr3 .lastBit) = .next t ∧ (dr3 .lastBit).I.toNat + (0x2 : Nibble).toNat ≤ 0x1000 ∧
      spriteOf (dr3 .lastBit) 0x0 0x1 0x2 = [(0, 0)] ++ [(0, 1)]) ∧
    (∃ t, exec (.drw 0x0 0x1 0x2) (dr3 .anyBit) = .next t ∧ (dr3 .anyBit).config.collisionMode = .anyBit) := by
  exact ⟨⟨_, rfl, rfl, by decide +kernel⟩, ⟨_, rfl, by decide, by decide +kernel⟩, _, rfl, rfl⟩
theorem witness_DrawingTwice : ∃ t, (0x0 : Nibble) ≠ 0xF ∧ (0x1 : Nibble) ≠ 0xF ∧
    (dr3 .lastBit).I.toNat + (0x2 : Nibble).toNat ≤ 0x1000 ∧ exec (.drw 0x0 0x1 0x2) (dr3 .lastBit) = .next t := by
  exact ⟨_, by decide, by decide, by decide, rfl⟩
theorem witness_RenderOutput : 63 < 64 ∧ 31 < 32 := by decide

/-- V0 = v under the policy `p`. -/
def keyTest (v : Byte) (p : UnmappedKeyPolicy) : State :=
  { withRegs [(0x0, v)] with config := { Config.standard with unmappedKeyPolicy := p } }

/-- KY5, KY6 and KY7: the last mapped value and the first unmapped one under each policy. -/
theorem witness_KeyTests : ((keyTest 0x0F .stall).reg 0x0).toNat = (0xF : Nibble).toNat ∧
    0x10 ≤ ((keyTest 0x10 .stall).reg 0x0).toNat ∧ (keyTest 0x10 .stall).config.unmappedKeyPolicy = .stall ∧
    0x10 ≤ ((keyTest 0x10 .advance).reg 0x0).toNat ∧ (keyTest 0x10 .advance).config.unmappedKeyPolicy = .advance := by
  decide +kernel
theorem witness_KeyDown : (pending [.keyDown 0xF]).phase = .between ∧ (pending [.keyDown 0xF]).inputs = .keyDown 0xF :: [] := by
  decide

/-- A block waiting for register 2 with the marker `m` and the events `es` pending. -/
def waitingFor2 (m : Option Nibble) (es : List HostEvent) : State :=
  { pending es with wait := .waiting 0x2, marker := m }

/-- KY11, KY10, and a release while idle. -/
theorem witness_KeyUp : (waitingFor2 (some 0x2) [.keyUp 0x2]).phase = .between ∧
    (waitingFor2 (some 0x2) [.keyUp 0x2]).inputs = .keyUp 0x2 :: [] ∧
    (waitingFor2 (some 0x2) [.keyUp 0x2]).wait = .waiting 0x2 ∧ (waitingFor2 (some 0x2) [.keyUp 0x2]).marker = some 0x2 ∧
    (waitingFor2 (some 0x2) [.keyUp 0x1]).marker ≠ some 0x1 ∧ (pending [.keyUp 0x3]).wait = .idle := by decide
theorem witness_PressAndRelease :
    (waitingFor2 none [.keyDown 0x7, .keyUp 0x7, .keyUp 0x7]).phase = .between ∧
    (waitingFor2 none [.keyDown 0x7, .keyUp 0x7, .keyUp 0x7]).wait = .waiting 0x2 ∧
    (waitingFor2 none [.keyDown 0x7, .keyUp 0x7, .keyUp 0x7]).inputs = .keyDown 0x7 :: .keyUp 0x7 :: .keyUp 0x7 :: [] := by
  decide

/-- A running block, waiting for register 2, with the keys `ks` pressed. -/
def polling (ks : List Nibble) : State :=
  ks.foldl (fun s k => s.setKey k true) { waitingFor2 none [] with running := true }

/-- The same block with a tick strobe and a key event pending. -/
def strobed (s : State) : State := { s with inputs := [.tick, .keyUp 0x1] }

/-- Each clause with no event pending and with a strobe first. -/
theorem witness_TickStarts : running.tickDue [] ∧ (strobed running).tickDue [.keyUp 0x1] ∧
    running.running = true ∧ running.fault = none ∧ running.wait = .idle ∧
    (({ faulted with running := true } : State).fault ≠ none ∧ ({ faulted with running := true } : State).tickDue [] ∧
      (strobed { faulted with running := true }).tickDue [.keyUp 0x1]) ∧
    ((polling []).tickDue [] ∧ (strobed (polling [])).tickDue [.keyUp 0x1] ∧ (polling []).running = true ∧
      (polling []).wait = .waiting 0x2 ∧ (polling []).fault = none ∧ ∀ k, (polling []).key k = false) := by decide +kernel
/-- KY14: two keys pressed, the last of them key F. -/
theorem witness_Poll : (polling [0x3, 0xF]).tickDue [] ∧ (strobed (polling [0x3, 0xF])).tickDue [.keyUp 0x1] ∧
    (polling [0x3, 0xF]).running = true ∧ (polling [0x3, 0xF]).fault = none ∧
    (polling [0x3, 0xF]).wait = .waiting 0x2 ∧ ∃ k, (polling [0x3, 0xF]).key k = true := by decide +kernel

/-- A running block at the end of a tick with ST = v. -/
def finishing (v : Byte) : State := { running with phase := .finish, ST := v }

theorem witness_TickEnds : (∀ v, (finishing v).phase = .finish) ∧ (finishing 0).ST.toNat = 0 ∧
    (finishing 1).ST.toNat = 1 ∧ 2 ≤ (finishing 2).ST.toNat := by
  exact ⟨fun _ => rfl, by decide, by decide, by decide⟩
theorem witness_StepsOfATick : running.tickDue [] ∧ (strobed running).tickDue [.keyUp 0x1] ∧ running.running = true := by
  decide
theorem witness_StartStop : (pending [.start]).inputs = .start :: [] ∧ (pending [.start]).running = false ∧
    ({ pending [.start] with running := true } : State).running = true ∧ (pending [.stop]).inputs = .stop :: [] ∧
    (pending [.toggleMute]).inputs = .toggleMute :: [] ∧ (pending [.start]).phase = .between := by decide
theorem witness_StoppedBlock : State.reset.phase = .between ∧ State.reset.running = false ∧ State.reset.inputs = [] ∧
    (pending [.tick]).inputs = .tick :: [] ∧ (pending [.tick]).running = false := by decide
/-- SH6 and SH7: 0xE00 bytes fit, 0xE01 do not. -/
theorem witness_LoadBuffer : Memory.wf State.reset.config.font State.reset.mem ∧
    (pending [.loadBuffer (List.replicate 0xE00 1)]).phase = .between ∧
    (pending [.loadBuffer (List.replicate 0xE00 1)]).inputs = .loadBuffer (List.replicate 0xE00 1) :: [] ∧
    0x200 + (List.replicate 0xE00 (1 : Byte)).length ≤ 0x1000 ∧
    0x1000 < 0x200 + (List.replicate 0xE01 (1 : Byte)).length := by
  exact ⟨by decide, rfl, rfl, by rw [List.length_replicate], by rw [List.length_replicate]; decide⟩
theorem witness_ResetEvent : (pending [.reset]).phase = .between ∧ (pending [.reset]).inputs = .reset :: [] := by decide
/-- Two states that differ in the fault and in the model's own fields. -/
theorem witness_ResetForgets : ({ faulted with phase := .finish, draws := 3 } : State).running = State.reset.running ∧
    ({ faulted with phase := .finish, draws := 3 } : State).mute = State.reset.mute ∧
    ({ faulted with phase := .finish, draws := 3 } : State).config = State.reset.config := by
  exact ⟨rfl, rfl, rfl⟩
theorem witness_Mute : ∃ t, step (finishing 1) = .next t := ⟨_, rfl⟩
theorem witness_RegistersChange : ∃ t, exec (.ldImm 0xA 0x42) State.reset = .next t ∧ t.reg 0xA ≠ State.reset.reg 0xA := by
  exact ⟨_, rfl, by decide +kernel⟩
theorem witness_MemoryChanges : ∃ t, Memory.wf (atI 0xFFD).config.font (atI 0xFFD).mem ∧
    exec (.ldB 0x0) { atI 0xFFD with V := Vector.replicate 16 255 } = .next t ∧ t.byteAt 0xFFF ≠ (atI 0xFFD).byteAt 0xFFF := by
  exact ⟨_, by decide, rfl, by decide +kernel⟩
theorem witness_OtherStateChanges : ∃ t, exec (.ldI 0x2F0) State.reset = .next t ∧ t.I ≠ State.reset.I := by
  exact ⟨_, rfl, by decide +kernel⟩
theorem witness_PcAfter : ∃ t, exec (.seImm 0x0 0x00) State.reset = .next t ∧ State.reset.fault = none ∧ t.fault = none := by
  exact ⟨_, rfl, rfl, rfl⟩
/-- CF8 and CF4: 00EE on an empty stack, and 2NNN with room on it. -/
theorem witness_FaultConditions : State.reset.fault = none ∧ State.reset.stack = [] ∧
    ¬16 ≤ State.reset.stack.length := by decide
/-- CF8 at the fault port: code 2, and all 0 before (R33, R210). -/
theorem test_fault_port : State.reset.faultPort = (0, 0, 0) ∧ faulted.faultPort = (2, 0x0200, 0x00EE) := by decide
theorem witness_FaultsArePrecise : ∃ t, step (inBatch 7 0x200) = .next t ∧ (inBatch 7 0x200).fault = none ∧ t.fault ≠ none := by
  refine ⟨{ inBatch 7 0x200 with
    fault := some ⟨.illegalInstruction, 0x200, 0x0000⟩, phase := .finish }, ?_, rfl, by decide⟩
  rfl

/-- The invariant holds in the faulted state: the states it admits are not only those of a running block. -/
theorem faulted_inv : faulted.Inv where
  memory := by decide
  stackDepth := by decide
  stackEntries := by intro _ h; cases h
  pcBound := by decide
  waitPc := by decide
  tickRunning := by decide
  batchOpen := by intro _ h; cases h
  faultIdle := by decide
  faultPc := fun f h => by cases h; rfl
  colours := by decide

theorem witness_FaultStays : ∃ t, faulted.Inv ∧ faulted.fault ≠ none ∧ step faulted = .next t ∧
    ∀ es, ¬(faulted.phase = .between ∧ faulted.inputs = .reset :: es) := by
  exact ⟨_, faulted_inv, by decide, rfl, fun _ h => List.cons_ne_nil _ _ h.2.symm⟩
/-- CF2: 0x1200 at 0x200. -/
theorem witness_IdleLoop : ({ running with mem := [(0x200, 0x12)] } : State).idleLoop ∧
    ({ running with mem := [(0x200, 0x12)] } : State).running = true ∧
    ({ running with mem := [(0x200, 0x12)] } : State).inputs = [] := by decide +kernel
theorem witness_StepKeepsTheInvariant : ∃ t, faulted.Inv ∧ step faulted = .next t := ⟨_, faulted_inv, rfl⟩

end Sys2Proof.Tests
end

section
/-! PROOF. What an instruction can do: it raises a fault, or it completes with the writes its row of the opcode map
names. The frames of the state and the invariant are read off these two cases. -/

namespace Sys2Proof.Machine

/-! ### The shape of an instruction's effect -/

/-- `t` is `s` after the writes that instruction `i` makes when it raises no fault, the written values left open. -/
def Completes (s t : State) : Instr → Prop
  | .cls => t = s.clearFB.advance
  | .ret => ∃ rest r, s.stack = rest ++ [r] ∧ t = (s.setStack rest).setPc (r + 2)
  | .jp nnn => t = s.setPc (addrWord nnn)
  | .jpV0 nnn => t = s.setPc (offsetTarget nnn (s.reg 0))
  | .call nnn => s.stack.length < 16 ∧ t = (s.setStack (s.stack ++ [s.pc])).setPc (addrWord nnn)
  | .seImm _ _ | .sneImm _ _ | .seReg _ _ _ | .sneReg _ _ _ => ∃ c, t = s.skipIf c
  | .skp _ | .sknp _ => t = s ∨ ∃ c, t = s.skipIf c
  | .ldImm x _ | .addImm x _ | .ldReg x _ | .orReg x _ | .andReg x _ | .xorReg x _ | .ldVxDT x =>
    ∃ v, t = s.writeResult x v
  | .rnd x _ => ∃ v, t = (s.setDraws (s.draws + 1)).writeResult x v
  | .addReg x _ | .subReg x _ | .shrReg x _ | .subnReg x _ | .shlReg x _ => ∃ v flag, t = s.writeResultFlag x v flag
  | .drw _ _ _ => ∃ fb vf, t = ((s.setFB fb).setReg vF vf).advance
  | .ldI _ | .addI _ | .ldF _ => ∃ a, t = (s.setI a).advance
  | .ldB _ | .storeRegs _ => ∃ a bs u, s.memWrite a bs = some u ∧ t = u.advance
  | .loadRegs x => ∃ bs, bs.length = x.toNat + 1 ∧ t = (s.setV (fillRegs s.V 0 bs)).advance
  | .ldVxK x => t = (s.setWait (.waiting x)).setMarker none
  | .ldDTVx _ => ∃ v, t = (s.setDT v).advance
  | .ldSTVx _ => ∃ v, t = (s.setST v).advance

/-- 8XY6 as one write of the result and the flag: the second write of VX overwrites the copy of VY. -/
theorem execShrReg_eq (x y : Nibble) (s : State) :
    execShrReg x y s = .next (s.writeResultFlag x (s.reg y >>> 1) (bitOutRight (s.reg y))) := by
  simp [execShrReg, State.writeResultFlag, State.setReg_setReg]

/-- 8XYE as one write of the result and the flag: the second write of VX overwrites the copy of VY. -/
theorem execShlReg_eq (x y : Nibble) (s : State) :
    execShlReg x y s = .next (s.writeResultFlag x (s.reg y <<< 1) (bitOutLeft (s.reg y))) := by
  simp [execShlReg, State.writeResultFlag, State.setReg_setReg]

section
variable {s t : State}

theorem execRet_cases (h : execRet s = .next t) :
    t = s.raise .stackUnderflow (encode .ret) ∨ Completes s t .ret := by
  unfold execRet at h
  split at h
  · exact .inl (Host.Outcome.next.inj h).symm
  next r u hpop =>
    obtain ⟨hs, hu⟩ := State.pop_eq_some hpop
    exact .inr ⟨_, r, hs, hu ▸ (Host.Outcome.next.inj h).symm⟩

theorem execCall_cases {nnn : Addr12} (h : execCall nnn s = .next t) :
    t = s.raise .stackOverflow (encode (.call nnn)) ∨ Completes s t (.call nnn) := by
  unfold execCall at h
  split at h
  · exact .inl (Host.Outcome.next.inj h).symm
  next u hpush =>
    obtain ⟨hroom, rfl⟩ := State.push_eq_some hpush
    exact .inr ⟨hroom, (Host.Outcome.next.inj h).symm⟩

theorem execDrw_cases {x y n : Nibble} (h : execDrw x y n s = .next t) :
    t = s.raise .memoryFault (encode (.drw x y n)) ∨ Completes s t (.drw x y n) := by
  unfold execDrw at h
  split at h
  · exact .inl (Host.Outcome.next.inj h).symm
  · exact .inr ⟨_, _, (Host.Outcome.next.inj h).symm⟩

theorem execAddI_cases {x : Nibble} (h : execAddI x s = .next t) :
    t = s.raise .indexOverflow (encode (.addI x)) ∨ Completes s t (.addI x) := by
  simp only [execAddI] at h
  split at h
  · exact .inl (Host.Outcome.next.inj h).symm
  · exact .inr ⟨_, (Host.Outcome.next.inj h).symm⟩

theorem execLdB_cases {x : Nibble} (h : execLdB x s = .next t) :
    t = s.raise .memoryFault (encode (.ldB x)) ∨ Completes s t (.ldB x) := by
  unfold execLdB at h
  split at h
  · exact .inl (Host.Outcome.next.inj h).symm
  next u hw => exact .inr ⟨_, _, u, hw, (Host.Outcome.next.inj h).symm⟩

theorem execStoreRegs_cases {x : Nibble} (h : execStoreRegs x s = .next t) :
    t = s.raise .memoryFault (encode (.storeRegs x)) ∨ Completes s t (.storeRegs x) := by
  unfold execStoreRegs at h
  split at h
  · exact .inl (Host.Outcome.next.inj h).symm
  next u hw => exact .inr ⟨_, _, u, hw, (Host.Outcome.next.inj h).symm⟩

theorem execLoadRegs_cases {x : Nibble} (h : execLoadRegs x s = .next t) :
    t = s.raise .memoryFault (encode (.loadRegs x)) ∨ Completes s t (.loadRegs x) := by
  unfold execLoadRegs at h
  split at h
  · exact .inl (Host.Outcome.next.inj h).symm
  next bs hr =>
    obtain ⟨-, rfl⟩ := State.memRead_eq_some hr
    exact .inr ⟨_, by simp, (Host.Outcome.next.inj h).symm⟩

/-- For an unmapped key a key test changes nothing or does not skip, as the parameter says (`46_keys.md` R174). -/
theorem State.unmappedKey_cases (s : State) : s.unmappedKey = s ∨ ∃ c, s.unmappedKey = s.skipIf c := by
  unfold State.unmappedKey
  split
  · exact .inl rfl
  · exact .inr ⟨false, rfl⟩

theorem execSkp_cases {x : Nibble} (h : execSkp x s = .next t) : Completes s t (.skp x) := by
  unfold execSkp at h
  split at h <;> obtain rfl := Host.Outcome.next.inj h
  · exact s.unmappedKey_cases
  · exact .inr ⟨_, rfl⟩

theorem execSknp_cases {x : Nibble} (h : execSknp x s = .next t) : Completes s t (.sknp x) := by
  unfold execSknp at h
  split at h <;> obtain rfl := Host.Outcome.next.inj h
  · exact s.unmappedKey_cases
  · exact .inr ⟨_, rfl⟩

/-- An instruction raises a fault with its own word, or it completes (`60_exceptions.md` R212). -/
theorem exec_cases {i : Instr} (h : exec i s = .next t) :
    (∃ code, t = s.raise code (encode i)) ∨ Completes s t i := by
  cases i with
  | ret => exact (execRet_cases h).imp_left (⟨_, ·⟩)
  | call => exact (execCall_cases h).imp_left (⟨_, ·⟩)
  | drw => exact (execDrw_cases h).imp_left (⟨_, ·⟩)
  | addI => exact (execAddI_cases h).imp_left (⟨_, ·⟩)
  | ldB => exact (execLdB_cases h).imp_left (⟨_, ·⟩)
  | storeRegs => exact (execStoreRegs_cases h).imp_left (⟨_, ·⟩)
  | loadRegs => exact (execLoadRegs_cases h).imp_left (⟨_, ·⟩)
  | skp => exact .inr (execSkp_cases h)
  | sknp => exact .inr (execSknp_cases h)
  | cls | jp | jpV0 | ldVxK => exact .inr (Host.Outcome.next.inj h).symm
  | shrReg x y => exact .inr ⟨_, _, (Host.Outcome.next.inj ((execShrReg_eq x y s).symm.trans h)).symm⟩
  | shlReg x y => exact .inr ⟨_, _, (Host.Outcome.next.inj ((execShlReg_eq x y s).symm.trans h)).symm⟩
  | addReg | subReg | subnReg => exact .inr ⟨_, _, (Host.Outcome.next.inj h).symm⟩
  | seImm | sneImm | seReg | sneReg | ldImm | addImm | ldReg | orReg | andReg | xorReg | rnd | ldI | ldF | ldVxDT
  | ldDTVx | ldSTVx => exact .inr ⟨_, (Host.Outcome.next.inj h).symm⟩

end

end Sys2Proof.Machine
end

section
/-! PROOF. The frames of the registers and of the rest of the state over all instructions (O50, O52). -/

namespace Sys2Proof.Machine

/-! ### Registers -/

/-- A register after `fillRegs` has put the bytes `bs` in the registers from `j` on. -/
theorem getElem_fillRegs (v : Vector Byte 16) (j : Nat) (bs : List Byte) (k : Nat) (hk : k < 16) :
    (fillRegs v j bs)[k] = if j ≤ k ∧ k < j + bs.length then bs[k - j]?.getD 0 else v[k] := by
  induction bs generalizing v j with
  | nil => rw [if_neg (by simp)]; rfl
  | cons b bs ih =>
    simp only [fillRegs, ih, Vector.getElem_setIfInBounds, List.length_cons]
    by_cases hkj : j = k
    · subst hkj
      simp
    · by_cases hin : j + 1 ≤ k ∧ k < j + 1 + bs.length
      · rw [if_pos hin, if_pos (by omega), show k - j = (k - (j + 1)) + 1 by omega, List.getElem?_cons_succ]
      · rw [if_neg hin, if_neg hkj, if_neg (by omega)]

/-- FX65's fill leaves a register above the last one filled. -/
theorem State.reg_setV_fillRegs_of_length_le {s : State} {bs : List Byte} {k : Nibble} (h : bs.length ≤ k.toNat) :
    (s.setV (fillRegs s.V 0 bs)).reg k = s.reg k := by
  simp only [State.reg, State.setV_V, getElem_fillRegs]
  rw [if_neg (by omega)]

/-- Settles O50: an instruction that completes writes its result register, then VF if it has a flag; FX65 fills V0 to
VX; the others, and a fault, write none. -/
theorem registersChangeOnlyAsNamed : Obligations.RegistersChangeOnlyAsNamed := by
  intro i s t k h hk
  rcases exec_cases h with ⟨code, rfl⟩ | hc
  · exact absurd rfl hk
  cases i with
  | ldImm x | addImm x | ldReg x | orReg x | andReg x | xorReg x | ldVxDT x =>
    obtain ⟨v, rfl⟩ := hc
    exact by_contra fun hx => hk ((s.writeResult_writesReg x v).others k hx)
  | rnd x =>
    obtain ⟨v, rfl⟩ := hc
    exact by_contra fun hx => hk (((s.setDraws _).writeResult_writesReg x v).others k hx)
  | addReg x | subReg x | shrReg x | subnReg x | shlReg x =>
    obtain ⟨v, flag, rfl⟩ := hc
    exact or_iff_not_imp_left.2 fun hx => by_contra fun hf =>
      hk ((s.writeResultFlag_writesRegFlag x v flag).others k hx hf)
  | drw =>
    obtain ⟨fb, vf, rfl⟩ := hc
    exact by_contra fun hf => hk ((s.setFB fb).reg_setReg_ne hf vf)
  | loadRegs x =>
    obtain ⟨bs, hlen, rfl⟩ := hc
    refine by_contra fun hx => hk ?_
    exact State.reg_setV_fillRegs_of_length_le (by omega)
  | ldB | storeRegs =>
    obtain ⟨a, bs, u, hw, rfl⟩ := hc
    obtain ⟨-, rfl⟩ := State.memWrite_eq_some hw
    exact hk rfl
  | skp | sknp => obtain rfl | ⟨_, rfl⟩ := hc <;> exact hk rfl
  | ret => obtain ⟨_, _, _, rfl⟩ := hc; exact hk rfl
  | call => obtain ⟨_, rfl⟩ := hc; exact hk rfl
  | cls | jp | jpV0 | ldVxK => obtain rfl := hc; exact hk rfl
  | seImm | sneImm | seReg | sneReg | ldI | addI | ldF | ldDTVx | ldSTVx =>
    obtain ⟨_, rfl⟩ := hc
    exact hk rfl

/-- Settles O52: a fault writes the record alone, and an instruction that completes writes what its shape names. -/
theorem otherStateChangesOnlyByItsInstructions : Obligations.OtherStateChangesOnlyByItsInstructions := by
  intro i s t h
  rcases exec_cases h with ⟨code, rfl⟩ | hc
  · simp [State.raise]
  cases i with
  | cls => obtain rfl := hc; simp [State.clearFB, State.advance]
  | ret => obtain ⟨rest, r, hs, rfl⟩ := hc; simp
  | call => obtain ⟨hroom, rfl⟩ := hc; simp
  | jp | jpV0 => obtain rfl := hc; simp
  | seImm | sneImm | seReg | sneReg => obtain ⟨c, rfl⟩ := hc; simp [State.skipIf]
  | skp | sknp => obtain rfl | ⟨c, rfl⟩ := hc <;> simp [State.skipIf]
  | ldImm | addImm | ldReg | orReg | andReg | xorReg | ldVxDT | rnd =>
    obtain ⟨v, rfl⟩ := hc
    simp [State.writeResult, State.setReg, State.advance]
  | addReg | subReg | shrReg | subnReg | shlReg =>
    obtain ⟨v, flag, rfl⟩ := hc
    simp [State.writeResultFlag, State.setFlag, State.setReg, State.advance]
  | drw => obtain ⟨fb, vf, rfl⟩ := hc; simp [State.setReg, State.advance]
  | ldI | addI | ldF | ldDTVx | ldSTVx => obtain ⟨v, rfl⟩ := hc; simp [State.advance]
  | ldB | storeRegs =>
    obtain ⟨a, bs, u, hw, rfl⟩ := hc
    obtain ⟨-, rfl⟩ := State.memWrite_eq_some hw
    simp [State.advance]
  | loadRegs => obtain ⟨bs, -, rfl⟩ := hc; simp [State.advance]
  | ldVxK => obtain rfl := hc; simp

/-- No instruction arms or disarms the scheduler (`10_state.md` R31). -/
theorem exec_running {i : Instr} {s t : State} (h : exec i s = .next t) : t.running = s.running := by
  obtain ⟨-, -, -, -, -, -, -, -, hrun, -⟩ := otherStateChangesOnlyByItsInstructions i s t h
  exact hrun

end Sys2Proof.Machine
end

section
/-! PROOF. The values at construction and after a reset, and the invariant of the block: it holds at construction and
every step keeps it (O47, O59, O60). Where the place in the tick changes later, the invariant is carried as that of the
state set between ticks, which says nothing of the phase. -/

namespace Sys2Proof.Machine

/-! ### Construction and reset -/

/-- Memory with nothing listed reads glyph d's byte r at 0x050 + 5·d + r (`10_state.md` R37). -/
theorem Memory.background_font (font : Vector (Vector Byte 5) 16) (d : Fin 16) (r : Fin 5) :
    Memory.background font (0x050 + 5 * d.val + r.val) = font[d.val][r.val] := by
  have hbase : Config.fontBase = 0x050 := rfl
  have hin : Config.fontBase ≤ 0x050 + 5 * d.val + r.val ∧ 0x050 + 5 * d.val + r.val < Config.fontBase + 80 := by
    omega
  have hrow : (0x050 + 5 * d.val + r.val - Config.fontBase) / 5 = d.val := by omega
  have hcol : (0x050 + 5 * d.val + r.val - Config.fontBase) % 5 = r.val := by omega
  simp only [Memory.background, dif_pos hin, hrow, hcol]

theorem Memory.background_of_outside {font : Vector (Vector Byte 5) 16} {a : Nat} (h : a < 0x050 ∨ 0x0A0 ≤ a) :
    Memory.background font a = 0 := by
  have hbase : Config.fontBase = 0x050 := rfl
  exact dif_neg (by omega)

theorem Framebuffer.pixel_blank (x y : Nat) : Framebuffer.pixel Framebuffer.blank x y = false := by
  simp [Framebuffer.pixel, Framebuffer.blank]

/-- A reset leaves the table of `10_state.md` R37, whatever the state before it. -/
theorem State.hostReset_resetValues (s : State) : ResetValues s.hostReset where
  font d r := Memory.background_font s.config.font d r
  zero _ ha := Memory.background_of_outside ha
  V k := by simp [State.reg, State.hostReset]
  I := rfl
  pc := rfl
  stack := rfl
  timers := ⟨rfl, rfl⟩
  keys k := by simp [State.key, State.hostReset]
  wait := rfl
  marker := rfl
  FB := Framebuffer.pixel_blank
  fault := rfl

/-- Settles O47: construction is what a reset makes of it, and a reset event is a reset with the queue advanced. -/
theorem constructionAndResetValues : Obligations.ConstructionAndResetValues :=
  ⟨⟨State.reset.hostReset_resetValues, rfl, rfl⟩, fun s es hp hi =>
    ⟨_, step_of_event hp hi, ((s.setOut []).setInputs es).hostReset_resetValues, rfl, rfl, rfl, rfl⟩⟩

/-- Settles O59: the reset values are inside every bound, and nothing of a tick, a wait or a fault is under way. -/
theorem invariantHoldsAtReset : Obligations.InvariantHoldsAtReset where
  memory := by decide
  stackDepth := by decide
  stackEntries := by simp [State.reset]
  pcBound := by decide
  waitPc h := absurd rfl h
  tickRunning h := absurd rfl h
  batchOpen _ h := nomatch h
  faultIdle _ := rfl
  faultPc _ h := nomatch h
  colours := by decide

/-! ### The invariant under the operations of the state -/

namespace State.Inv

variable {s : State}

/-- The invariant moves to another place in the tick where what it says of that place holds. -/
theorem setPhase (h : s.Inv) {p : Phase} (hr : p ≠ .between → s.running = true)
    (hb : ∀ left, p = .batch left → 1 ≤ left ∧ left ≤ 8 ∧ s.wait = .idle ∧ s.fault = none) :
    (s.setPhase p).Inv :=
  { h with tickRunning := hr, batchOpen := hb }

theorem setPhase_between (h : s.Inv) : (s.setPhase .between).Inv :=
  h.setPhase (fun hn => absurd rfl hn) (fun _ hp => nomatch hp)

theorem setPhase_finish (h : s.Inv) (hr : s.running = true) : (s.setPhase .finish).Inv :=
  h.setPhase (fun _ => hr) (fun _ hp => nomatch hp)

/-- pc moves only while the block neither waits nor is faulted. -/
theorem setPc (h : s.Inv) {v : Word} (hv : v.toNat ≤ 0x10FE) (hw : s.wait = .idle) (hf : s.fault = none) :
    (s.setPc v).Inv :=
  { h with
    pcBound := hv
    waitPc := fun hn => absurd hw hn
    faultPc := fun _ hs => absurd (hf.symm.trans hs) (by simp) }

/-- From a pc inside memory an advance or a skip stays below the bound. -/
theorem advance (h : s.Inv) (hp : s.pc.toNat ≤ 0xFFF) (hw : s.wait = .idle) (hf : s.fault = none) : s.advance.Inv :=
  h.setPc (by bv_omega) hw hf

theorem skipIf (h : s.Inv) (hp : s.pc.toNat ≤ 0xFFF) (hw : s.wait = .idle) (hf : s.fault = none) (c : Bool) :
    (s.skipIf c).Inv :=
  h.setPc (by split <;> bv_omega) hw hf

theorem setStack (h : s.Inv) {v : List Word} (hlen : v.length ≤ 16) (hv : ∀ a ∈ v, a.toNat ≤ 0xFFF) :
    (s.setStack v).Inv :=
  { h with stackDepth := hlen, stackEntries := hv }

theorem setMem (h : s.Inv) {m : Memory} (hm : Memory.wf s.config.font m) : (s.setMem m).Inv :=
  { h with memory := hm }

/-! The invariant does not read the registers, I, the timers, the keys, the marker, the framebuffer, `mute`, the
queue, the outputs or the draw counter. -/

theorem setV (h : s.Inv) (v : Vector Byte 16) : (s.setV v).Inv := { h with }
theorem setReg (h : s.Inv) (r : Nibble) (v : Byte) : (s.setReg r v).Inv := h.setV _
theorem setI (h : s.Inv) (v : Word) : (s.setI v).Inv := { h with }
theorem setDT (h : s.Inv) (v : Byte) : (s.setDT v).Inv := { h with }
theorem setST (h : s.Inv) (v : Byte) : (s.setST v).Inv := { h with }
theorem setKeys (h : s.Inv) (v : Vector Bool 16) : (s.setKeys v).Inv := { h with }
theorem setMarker (h : s.Inv) (v : Option Nibble) : (s.setMarker v).Inv := { h with }
theorem setFB (h : s.Inv) (v : Framebuffer) : (s.setFB v).Inv := { h with }
theorem setMute (h : s.Inv) (v : Bool) : (s.setMute v).Inv := { h with }
theorem setInputs (h : s.Inv) (v : List HostEvent) : (s.setInputs v).Inv := { h with }
theorem setOut (h : s.Inv) (v : List Output) : (s.setOut v).Inv := { h with }
theorem setDraws (h : s.Inv) (v : Nat) : (s.setDraws v).Inv := { h with }

/-- The scheduler is armed at any time, and disarmed between ticks. -/
theorem setRunning (h : s.Inv) {v : Bool} (hv : s.phase ≠ .between → v = true) : (s.setRunning v).Inv :=
  { h with tickRunning := hv }

/-- A fault of a block that does not wait: the record holds the pc, which stays (`60_exceptions.md` R212). -/
theorem raise_setPhase_between (h : s.Inv) (hw : s.wait = .idle) (code : FaultCode) (op : Word) :
    ((s.raise code op).setPhase .between).Inv :=
  { h with
    tickRunning := fun hn => absurd rfl hn
    batchOpen := fun _ hp => nomatch hp
    faultIdle := fun _ => hw
    faultPc := fun _ hr => Option.some.inj hr ▸ rfl }

/-- A wait begins at a pc in memory, with no fault recorded (`46_keys.md` R177). -/
theorem setWait_setPhase_between (h : s.Inv) (hp : s.pc.toNat ≤ 0xFFF) (hf : s.fault = none) (w : Wait) :
    ((s.setWait w).setPhase .between).Inv :=
  { h with
    waitPc := fun _ => hp
    tickRunning := fun hn => absurd rfl hn
    batchOpen := fun _ hp => nomatch hp
    faultIdle := fun hn => absurd hf hn }

/-- The end of a wait. -/
theorem setWait_idle (h : s.Inv) : (s.setWait .idle).Inv :=
  { h with
    waitPc := fun hn => absurd rfl hn
    batchOpen := fun left hp =>
      have ⟨hlow, hhigh, _, hf⟩ := h.batchOpen left hp
      ⟨hlow, hhigh, rfl, hf⟩
    faultIdle := fun _ => rfl }

end State.Inv

/-! ### The instruction cycle -/

/-- A fetch from 0x1000 on reads 0x0000, which is no instruction, so an instruction that runs lies in memory
(`20_memory.md` R54, `30_encoding.md` R78). -/
theorem pc_le_of_decode_fetchWord {s : State} {i : Instr} (h : decode s.fetchWord = .ok i) : s.pc.toNat ≤ 0xFFF := by
  by_contra hp
  have hword : s.fetchWord = 0 := by
    have hmem : Config.memSize = 0x1000 := rfl
    unfold State.fetchWord State.fetchByte
    rw [if_neg (by omega), if_neg (by omega)]
    rfl
  have hreject : decode 0 = .error (.illegalClass0 0) := by decide
  exact nomatch (hword ▸ hreject).symm.trans h

section
variable {s t : State}

/-- pc after 1NNN and 2NNN is a 12-bit address. -/
theorem addrWord_toNat_le (nnn : Addr12) : (addrWord nnn).toNat ≤ 0xFFF := by
  have := nnn.isLt
  rw [addrWord, BitVec.toNat_ofNat]
  omega

/-- pc after BNNN is at most 0xFFF + 0xFF (`10_state.md` R22). -/
theorem offsetTarget_toNat_le (nnn : Addr12) (v : Byte) : (offsetTarget nnn v).toNat ≤ 0x10FE := by
  have := nnn.isLt
  have := v.isLt
  rw [offsetTarget, BitVec.toNat_ofNat]
  omega

/-- An instruction that completes from a pc in memory keeps the invariant, but for the place in the tick. -/
theorem Completes.inv {i : Instr} (hc : Completes s t i) (h : s.Inv) (hp : s.pc.toNat ≤ 0xFFF) (hw : s.wait = .idle)
    (hf : s.fault = none) : (t.setPhase .between).Inv := by
  cases i with
  | ldVxK x =>
    obtain rfl := hc
    exact (h.setWait_setPhase_between hp hf (.waiting x)).setMarker none
  | ret =>
    obtain ⟨rest, r, hs, rfl⟩ := hc
    have hr : r.toNat ≤ 0xFFF := h.stackEntries r (by simp [hs])
    have hdepth : (rest ++ [r]).length ≤ 16 := hs ▸ h.stackDepth
    rw [List.length_append] at hdepth
    have hrest : (s.setStack rest).Inv := h.setStack (by omega) fun a ha => h.stackEntries a (by simp [hs, ha])
    exact (hrest.setPc (by bv_omega) hw hf).setPhase_between
  | call nnn =>
    obtain ⟨hroom, rfl⟩ := hc
    have hpush : (s.setStack (s.stack ++ [s.pc])).Inv := h.setStack (by simpa using hroom) fun a ha => by
      rcases List.mem_append.1 ha with ha | ha
      · exact h.stackEntries a ha
      · rwa [List.mem_singleton.1 ha]
    exact (hpush.setPc ((addrWord_toNat_le nnn).trans (by decide)) hw hf).setPhase_between
  | jp nnn =>
    obtain rfl := hc
    exact (h.setPc ((addrWord_toNat_le nnn).trans (by decide)) hw hf).setPhase_between
  | jpV0 nnn => obtain rfl := hc; exact (h.setPc (offsetTarget_toNat_le nnn _) hw hf).setPhase_between
  | seImm | sneImm | seReg | sneReg => obtain ⟨c, rfl⟩ := hc; exact (h.skipIf hp hw hf c).setPhase_between
  | skp | sknp =>
    obtain rfl | ⟨c, rfl⟩ := hc
    · exact h.setPhase_between
    · exact (h.skipIf hp hw hf c).setPhase_between
  | cls => obtain rfl := hc; exact ((h.setFB Framebuffer.blank).advance hp hw hf).setPhase_between
  | ldImm x | addImm x | ldReg x | orReg x | andReg x | xorReg x | ldVxDT x =>
    obtain ⟨v, rfl⟩ := hc
    exact ((h.setReg x v).advance hp hw hf).setPhase_between
  | rnd x =>
    obtain ⟨v, rfl⟩ := hc
    exact (((h.setDraws (s.draws + 1)).setReg x v).advance hp hw hf).setPhase_between
  | addReg x | subReg x | shrReg x | subnReg x | shlReg x =>
    obtain ⟨v, flag, rfl⟩ := hc
    exact (((h.setReg x v).setReg vF (flagByte flag)).advance hp hw hf).setPhase_between
  | drw => obtain ⟨fb, v, rfl⟩ := hc; exact (((h.setFB fb).setReg vF v).advance hp hw hf).setPhase_between
  | ldI | addI | ldF => obtain ⟨a, rfl⟩ := hc; exact ((h.setI a).advance hp hw hf).setPhase_between
  | ldDTVx => obtain ⟨v, rfl⟩ := hc; exact ((h.setDT v).advance hp hw hf).setPhase_between
  | ldSTVx => obtain ⟨v, rfl⟩ := hc; exact ((h.setST v).advance hp hw hf).setPhase_between
  | ldB | storeRegs =>
    obtain ⟨a, bs, u, hu, rfl⟩ := hc
    have hwf := State.memWrite_wf h.memory hu
    obtain ⟨-, rfl⟩ := State.memWrite_eq_some hu
    exact ((h.setMem hwf).advance hp hw hf).setPhase_between
  | loadRegs => obtain ⟨bs, -, rfl⟩ := hc; exact ((h.setV (fillRegs s.V 0 bs)).advance hp hw hf).setPhase_between

/-- A cycle keeps the invariant, but for the place in the tick, and leaves the scheduler armed or not as it was. -/
theorem cycle_keeps_inv (h : s.Inv) (hw : s.wait = .idle) (hf : s.fault = none) (hc : cycle s = .next t) :
    (t.setPhase .between).Inv ∧ t.running = s.running := by
  obtain ⟨i, hi, he⟩ | ⟨e, -, he⟩ := cycle_cases s <;> rw [he] at hc
  · refine ⟨?_, exec_running hc⟩
    rcases exec_cases hc with ⟨code, rfl⟩ | hcompl
    · exact h.raise_setPhase_between hw code _
    · exact hcompl.inv h (pc_le_of_decode_fetchWord hi) hw hf
  · obtain rfl := Host.Outcome.next.inj hc
    exact ⟨h.raise_setPhase_between hw _ _, rfl⟩

/-- After a cycle of a running block the batch goes on only with a cycle left, no wait and no fault
(`47_scheduler_host.md` R193). -/
theorem afterCycle_inv {left : Nat} (h : (s.setPhase .between).Inv) (hr : s.running = true) (hleft : left ≤ 8) :
    (s.afterCycle left).Inv := by
  refine h.setPhase (fun _ => hr) fun n hn => ?_
  split at hn
  · cases hn
  next hgo =>
    obtain rfl := Phase.batch.inj hn
    simp only [not_or, not_not] at hgo
    obtain ⟨hleft', hw, hf⟩ := hgo
    exact ⟨by omega, by omega, hw, hf⟩

/-- A step of a batch keeps the invariant. -/
theorem batchStep_keeps_inv {left : Nat} (h : s.Inv) (hph : s.phase = .batch left) (hb : batchStep left s = .next t) :
    t.Inv := by
  obtain ⟨hpos, hleft, hw, hf⟩ := h.batchOpen left hph
  have hrun : s.running = true := h.tickRunning (by simp [hph])
  unfold batchStep at hb
  rw [if_neg (by simpa [hw, hf] using Nat.ne_of_gt hpos)] at hb
  split at hb
  next u hu =>
    obtain rfl := Host.Outcome.next.inj hb
    obtain ⟨hinv, hr⟩ := cycle_keeps_inv h hw hf hu
    exact afterCycle_inv hinv (hr.trans hrun) hleft
  all_goals cases hb

end

/-! ### The ends of a tick and the host events -/

section
variable {s : State}

/-- A wait that is resolved ends with pc past its FX0A, which lies in memory (`46_keys.md` R178). -/
theorem State.Inv.resolveWait (h : s.Inv) (k : Nibble) : (s.resolveWait k).Inv := by
  cases hw : s.wait with
  | idle => rwa [State.resolveWait_idle hw]
  | waiting r =>
    rw [State.resolveWait_waiting hw]
    have hne : s.wait ≠ .idle := by simp [hw]
    have hf : s.fault = none := by_contra fun hf => hne (h.faultIdle hf)
    exact ((h.setReg r _).setWait_idle.setMarker none).advance (h.waitPc hne) rfl hf

theorem State.resolveWait_running (s : State) (k : Nibble) : (s.resolveWait k).running = s.running := by
  unfold State.resolveWait
  split <;> rfl

/-- A poll resolves the wait with some key or changes nothing (`46_keys.md` R181). -/
theorem State.poll_cases (s : State) : s.poll = s ∨ ∃ k, s.poll = (s.setDraws (s.draws + 1)).resolveWait k := by
  unfold State.poll
  split
  · exact .inl rfl
  · exact .inr ⟨_, rfl⟩

theorem State.Inv.poll (h : s.Inv) : s.poll.Inv := by
  obtain hp | ⟨k, hp⟩ := s.poll_cases <;> rw [hp]
  · exact h
  · exact (h.setDraws _).resolveWait k

theorem State.poll_running (s : State) : s.poll.running = s.running := by
  obtain hp | ⟨k, hp⟩ := s.poll_cases <;> rw [hp]
  exact State.resolveWait_running _ k

/-- A tick that begins while the scheduler is armed opens a batch only with no fault and no wait
(`47_scheduler_host.md` R191, R192). -/
theorem State.Inv.beginTick (h : s.Inv) (hr : s.running = true) : s.beginTick.Inv := by
  by_cases hf : s.fault = none
  · cases hw : s.wait with
    | idle =>
      rw [State.beginTick_of_idle hf hw]
      refine h.setPhase (fun _ => hr) fun left hp => ?_
      obtain rfl := Phase.batch.inj hp
      exact ⟨by decide, by decide, hw, hf⟩
    | waiting r =>
      rw [State.beginTick_of_waiting hf hw]
      exact h.poll.setPhase_finish (s.poll_running.trans hr)
  · rw [State.beginTick_of_fault hf]
    exact h.setPhase_finish hr

theorem State.Inv.strobe (h : s.Inv) : s.strobe.Inv := by
  unfold State.strobe
  split
  next hr => exact h.beginTick hr
  · exact h

theorem State.Inv.start (h : s.Inv) : s.start.Inv := by
  unfold State.start
  split
  · exact h
  · exact (h.setRunning fun _ => rfl).beginTick rfl

theorem State.Inv.loadBuffer (h : s.Inv) (bytes : List Byte) : (s.loadBuffer bytes).Inv := by
  unfold State.loadBuffer
  split
  next hfit => exact h.setMem (Memory.setAll_wf h.memory hfit)
  · exact h

theorem State.Inv.keyUp (h : s.Inv) (k : Nibble) : (s.keyUp k).Inv := by
  have hk : (s.setKey k false).Inv := h.setKeys _
  unfold State.keyUp
  split
  · exact hk.resolveWait k
  · exact hk

/-- Between ticks a reset leaves only the colours and the place in the tick to the state before. -/
theorem State.Inv.hostReset (h : s.Inv) (hp : s.phase = .between) : s.hostReset.Inv where
  memory := ⟨.nil, fun _ hc => nomatch hc⟩
  stackDepth := by simp [State.hostReset]
  stackEntries := by simp [State.hostReset]
  pcBound := by simp [State.hostReset]
  waitPc hn := absurd rfl hn
  tickRunning := h.tickRunning
  batchOpen _ hb := nomatch hp.symm.trans hb
  faultIdle _ := rfl
  faultPc _ hf := nomatch hf
  colours := h.colours

/-- Every host event, taken between ticks, keeps the invariant (`47_scheduler_host.md` R197, R200). -/
theorem State.Inv.takeEvent (h : s.Inv) (hp : s.phase = .between) (e : HostEvent) : (s.takeEvent e).Inv := by
  cases e with
  | tick => exact h.strobe
  | start => exact h.start
  | stop => exact h.setRunning fun hn => absurd hp hn
  | reset => exact h.hostReset hp
  | loadBuffer bytes => exact h.loadBuffer bytes
  | toggleMute => exact (h.setMute _).setOut _
  | keyDown k => exact (h.setKeys _).setMarker _
  | keyUp k => exact h.keyUp k

theorem State.Inv.finishTick (h : s.Inv) : s.finishTick.Inv :=
  ((((h.setOut _).setDT _).setST _).setOut _).setPhase_between

end

/-- Settles O60: the invariant of the state with its outputs emptied is kept between ticks by every event and by the
start of a tick, in a batch by the cycle, and by the end of a tick. -/
theorem stepKeepsTheInvariant : Obligations.StepKeepsTheInvariant := by
  intro s t h hstep
  have hout : (s.setOut []).Inv := h.setOut []
  cases hp : s.phase with
  | batch left =>
    rw [step_of_batch hp] at hstep
    exact batchStep_keeps_inv hout hp hstep
  | finish =>
    rw [step_of_finish hp] at hstep
    exact Host.Outcome.next.inj hstep ▸ hout.finishTick
  | between =>
    cases hi : s.inputs with
    | nil =>
      rw [step_of_no_event hp hi] at hstep
      exact Host.Outcome.next.inj hstep ▸ hout.strobe
    | cons e es =>
      rw [step_of_event hp hi] at hstep
      exact Host.Outcome.next.inj hstep ▸ (hout.setInputs es).takeEvent hp e

end Sys2Proof.Machine
end

section
/-! PROOF. Memory: the fetch (O6), reading a stored byte back (O10), loadBuffer (O46), and which instructions write
memory (O51). A buffer that fits is a store at PROG_BASE, so that the laws of a store serve all of them. -/

namespace Sys2Proof.Machine

/-! ### The fetch (`20_memory.md` R54) -/

/-- A word is big-endian: its first byte is the high one. -/
theorem wordOfBytes_toNat (hi lo : Byte) : (wordOfBytes hi lo).toNat = hi.toNat * 256 + lo.toNat := by
  have hlo : lo.toNat < 2 ^ 8 := lo.isLt
  rw [wordOfBytes, BitVec.toNat_append, Nat.shiftLeft_eq, Nat.mul_comm, ← Nat.two_pow_add_eq_or_of_lt hlo,
    Nat.mul_comm]

section
variable {s t : State} {a : Nat} {bs : List Byte}

theorem State.fetchByte_of_lt (h : a < 0x1000) : s.fetchByte a = s.byteAt a := if_pos h

theorem State.fetchByte_of_le (h : 0x1000 ≤ a) : s.fetchByte a = 0 := if_neg (Nat.not_lt.2 h)

theorem State.fetchWord_toNat (s : State) :
    s.fetchWord.toNat = (s.fetchByte s.pc.toNat).toNat * 256 + (s.fetchByte (s.pc.toNat + 1)).toNat :=
  wordOfBytes_toNat _ _

/-- Settles O6: below 0xFFF both bytes lie in memory, at 0xFFF the second one is past it, from 0x1000 on both are. -/
theorem fetchIsBigEndianAndZeroPastMemory : Obligations.FetchIsBigEndianAndZeroPastMemory := by
  intro s
  refine ⟨fun hlow => ?_, fun hlast => ?_, fun hpast => ?_⟩
  · rw [State.fetchWord_toNat, State.fetchByte_of_lt (by omega), State.fetchByte_of_lt (by omega)]
  · rw [State.fetchWord_toNat, hlast, State.fetchByte_of_lt (by decide), State.fetchByte_of_le (by decide)]
    simp
  · rw [State.fetchWord, State.fetchByte_of_le hpast, State.fetchByte_of_le (by omega)]
    rfl

/-! ### What a store leaves (`20_memory.md` R57) -/

/-- The bytes stored are read back at their addresses. -/
theorem State.byteAt_memWrite_add (hs : Memory.wf s.config.font s.mem) (hw : s.memWrite a bs = some t) {j : Nat}
    (h : j < bs.length) : t.byteAt (a + j) = bs[j] := by
  rw [State.byteAt_memWrite hs hw, if_pos (by omega), Nat.add_sub_cancel_left, List.getElem?_eq_getElem h,
    Option.getD_some]

theorem State.memWrite_sameBytesOutside (hs : Memory.wf s.config.font s.mem) (hw : s.memWrite a bs = some t) :
    SameBytesOutside s t a bs.length := by
  intro b hb
  rw [State.byteAt_memWrite hs hw, if_neg (by omega)]

/-- A store writes memory and no other field. -/
theorem State.memWrite_frame (hw : s.memWrite a bs = some t) : t = s.setMem t.mem := by
  obtain ⟨-, rfl⟩ := State.memWrite_eq_some hw
  rfl

theorem SameBytesOutside.advance {n : Nat} (h : SameBytesOutside s t a n) : SameBytesOutside s t.advance a n := h

/-- A byte that reads differently lies among the addresses outside of which none does. -/
theorem SameBytesOutside.mem_span {n b : Nat} (h : SameBytesOutside s t a n) (hne : t.byteAt b ≠ s.byteAt b) :
    a ≤ b ∧ b < a + n := by
  by_contra hb
  exact hne (h b (by omega))

/-- Settles O10: a store that is made lies in memory, where a fetch reads what the store left. -/
theorem storedBytesAreFetchedNext : Obligations.StoredBytesAreFetchedNext := by
  intro s t a bs j hs hw h
  have hin : a + bs.length ≤ 0x1000 :=
    (State.memWrite_eq_some hw).1.resolve_left (List.ne_nil_of_length_pos (by omega))
  rw [State.fetchByte_of_lt (by omega), State.byteAt_memWrite_add hs hw h]

/-! ### loadBuffer (`20_memory.md` R65) -/

/-- A buffer that fits is a store of its bytes at PROG_BASE. -/
theorem State.memWrite_progBase_eq_loadBuffer (h : 0x200 + bs.length ≤ 0x1000) :
    s.memWrite 0x200 bs = some (s.loadBuffer bs) := by
  rw [State.memWrite, if_pos (spanInMemory_iff.2 (.inr h)), State.loadBuffer, if_pos h]

/-- A buffer that fits is copied, and nothing else changes. -/
theorem State.loadBuffer_copies (hs : Memory.wf s.config.font s.mem) (h : 0x200 + bs.length ≤ 0x1000) :
    (∀ (j : Nat) (hj : j < bs.length), (s.loadBuffer bs).byteAt (0x200 + j) = bs[j]) ∧
      SameBytesOutside s (s.loadBuffer bs) 0x200 bs.length ∧ s.loadBuffer bs = s.setMem (s.loadBuffer bs).mem := by
  have hw : s.memWrite 0x200 bs = some (s.loadBuffer bs) := State.memWrite_progBase_eq_loadBuffer h
  exact ⟨fun _ hj => State.byteAt_memWrite_add hs hw hj, State.memWrite_sameBytesOutside hs hw,
    State.memWrite_frame hw⟩

/-- A buffer that does not fit is refused whole (`92_eei_decisions.md` D16). -/
theorem State.loadBuffer_of_lt (h : 0x1000 < 0x200 + bs.length) : s.loadBuffer bs = s := if_neg (Nat.not_le.2 h)

/-- Settles O46: the event is taken from the queue; a buffer that fits is copied, any other is refused. -/
theorem loadBufferCopiesOrRefusesWhole : Obligations.LoadBufferCopiesOrRefusesWhole := by
  intro s bs es hs hp hi
  have hstep : step s = .next (((s.setOut []).setInputs es).loadBuffer bs) := step_of_event hp hi
  refine ⟨fun hfit => ?_, fun hover => ?_⟩
  · exact ⟨_, hstep, State.loadBuffer_copies (s := (s.setOut []).setInputs es) hs hfit⟩
  · rw [hstep, State.loadBuffer_of_lt hover]
    rfl

/-! ### The instructions that write memory (`20_memory.md` R52) -/

/-- FX33 faults, or stores the digits of VX at I (`43_index_memory.md` R134). -/
theorem execLdB_faults_or_stores {x : Nibble} (h : execLdB x s = .next t) :
    t = s.raise .memoryFault (encode (.ldB x)) ∨
      ∃ u, s.memWrite s.I.toNat (decimalDigits (s.reg x)) = some u ∧ t = u.advance := by
  unfold execLdB at h
  split at h
  · exact .inl (Host.Outcome.next.inj h).symm
  next u hw => exact .inr ⟨u, hw, (Host.Outcome.next.inj h).symm⟩

/-- FX55 faults, or stores V0 to VX at I (`43_index_memory.md` R135). -/
theorem execStoreRegs_faults_or_stores {x : Nibble} (h : execStoreRegs x s = .next t) :
    t = s.raise .memoryFault (encode (.storeRegs x)) ∨
      ∃ u, s.memWrite s.I.toNat (s.regsUpTo x) = some u ∧ t = u.advance := by
  unfold execStoreRegs at h
  split at h
  · exact .inl (Host.Outcome.next.inj h).symm
  next u hw => exact .inr ⟨u, hw, (Host.Outcome.next.inj h).symm⟩

theorem State.length_regsUpTo (s : State) (x : Nibble) : (s.regsUpTo x).length = x.toNat + 1 := by
  simp [State.regsUpTo]
  omega

theorem execLdB_sameBytesOutside {x : Nibble} (hs : Memory.wf s.config.font s.mem) (h : execLdB x s = .next t) :
    SameBytesOutside s t s.I.toNat 3 := by
  rcases execLdB_faults_or_stores h with rfl | ⟨u, hw, rfl⟩
  · exact fun _ _ => rfl
  · exact (State.memWrite_sameBytesOutside hs hw).advance

theorem execStoreRegs_sameBytesOutside {x : Nibble} (hs : Memory.wf s.config.font s.mem)
    (h : execStoreRegs x s = .next t) : SameBytesOutside s t s.I.toNat (x.toNat + 1) := by
  rcases execStoreRegs_faults_or_stores h with rfl | ⟨u, hw, rfl⟩
  · exact fun _ _ => rfl
  · exact s.length_regsUpTo x ▸ (State.memWrite_sameBytesOutside hs hw).advance

/-- An instruction other than FX33 and FX55 completes without a write to memory. -/
theorem Completes.sameBytes {i : Instr} (hc : Completes s t i) (hB : ∀ x, i ≠ .ldB x) (hS : ∀ x, i ≠ .storeRegs x) :
    SameBytes s t := by
  intro a
  cases i with
  | ldB x => exact absurd rfl (hB x)
  | storeRegs x => exact absurd rfl (hS x)
  | skp | sknp => obtain rfl | ⟨_, rfl⟩ := hc <;> rfl
  | cls | jp | jpV0 | ldVxK => obtain rfl := hc; rfl
  | ret => obtain ⟨_, _, _, rfl⟩ := hc; rfl
  | call => obtain ⟨_, rfl⟩ := hc; rfl
  | addReg | subReg | shrReg | subnReg | shlReg | drw => obtain ⟨_, _, rfl⟩ := hc; rfl
  | loadRegs => obtain ⟨_, _, rfl⟩ := hc; rfl
  | seImm | sneImm | seReg | sneReg | ldImm | addImm | ldReg | orReg | andReg | xorReg | rnd | ldI | addI | ldF
  | ldVxDT | ldDTVx | ldSTVx => obtain ⟨_, rfl⟩ := hc; rfl

theorem exec_sameBytes {i : Instr} (h : exec i s = .next t) (hB : ∀ x, i ≠ .ldB x) (hS : ∀ x, i ≠ .storeRegs x) :
    SameBytes s t := by
  rcases exec_cases h with ⟨code, rfl⟩ | hc
  · exact fun _ => rfl
  · exact hc.sameBytes hB hS

end

/-- Settles O51: FX33 and FX55 write their own span at I; every other instruction leaves all bytes. -/
theorem memoryChangesOnlyByFX33AndFX55 : Obligations.MemoryChangesOnlyByFX33AndFX55 := by
  intro i s t a hs h hne
  cases i with
  | ldB x => exact (execLdB_sameBytesOutside hs h).mem_span hne
  | storeRegs x =>
    obtain ⟨hlow, hhigh⟩ := (execStoreRegs_sameBytesOutside hs h).mem_span hne
    exact ⟨hlow, Nat.le_of_lt_succ hhigh⟩
  | _ => exact hne (exec_sameBytes h nofun nofun a)

end Sys2Proof.Machine
end

section
/-! PROOF. Encoding: decode and encode are inverse to each other (O1, O2, O3), a word that matches a row of the opcode
map is the word of an instruction of that row (O4), and the words that are rejected (O5). That the rows do not overlap
follows from the inverse, with no comparison of their masks. -/

namespace Sys2Proof

/-! ### Decoding an encoded word -/

/-- Decoding gives back what was encoded: the fields of a word of a layout are the layout's operands, and the class
and its second level select the constructor. -/
theorem decode_encode (i : Instr) : decode (encode i) = .ok i := by
  cases i with
  | cls | ret => rfl
  | jp | call | ldI | jpV0 => simp [encode, decode, select, fieldsOf_encodeAddr]
  | seImm | sneImm | ldImm | addImm | rnd => simp [encode, decode, select, fieldsOf_encodeImm]
  | seReg | sneReg | drw => simp [encode, decode, select, fieldsOf_encodeNibbles]
  | ldReg | orReg | andReg | xorReg | addReg | subReg | shrReg | subnReg | shlReg =>
    simp [encode, decode, select, selectClass8, fieldsOf_encodeNibbles]
  | skp | sknp => simp [encode, decode, select, selectClassE, fieldsOf_encodeImm]
  | ldVxDT | ldVxK | ldDTVx | ldSTVx | addI | ldF | ldB | storeRegs | loadRegs =>
    simp [encode, decode, select, selectClassF, fieldsOf_encodeImm]

/-- Settles O2: `decode_encode`. -/
theorem decodeOfEncodeIsTheInstruction : Obligations.DecodeOfEncodeIsTheInstruction := decode_encode

/-- Settles O1: each word written out is the encoded word of its instruction. -/
theorem wordsWrittenOutDecode : Obligations.WordsWrittenOutDecode :=
  ⟨decode_encode .cls, decode_encode .ret, decode_encode (.jp 0x234), decode_encode (.ldImm 0xA 0x42),
    decode_encode (.addReg 0x1 0x2), decode_encode (.shlReg 0x1 0x2), decode_encode (.ldI 0x2F0),
    decode_encode (.drw 0x1 0x2 0x3), decode_encode (.skp 0x5), decode_encode (.ldVxK 0x3),
    decode_encode (.ldDTVx 0x3), decode_encode (.storeRegs 0x3)⟩

/-! ### Encoding a decoded word -/

section
variable {w : Word} {c n : Nibble} {nn : Byte} {i : Instr}

/-! A word of a known class is encoded by the class and its other fields, the fixed ones among them. -/

theorem encodeAddr_of_class (hc : (fieldsOf w).c.toNat = c.toNat) : encodeAddr c (fieldsOf w).nnn = w :=
  BitVec.eq_of_toNat_eq hc ▸ encodeAddr_fieldsOf w

theorem encodeImm_of_class (hc : (fieldsOf w).c.toNat = c.toNat) : encodeImm c (fieldsOf w).x (fieldsOf w).nn = w :=
  BitVec.eq_of_toNat_eq hc ▸ encodeImm_fieldsOf w

theorem encodeNibbles_of_class (hc : (fieldsOf w).c.toNat = c.toNat) :
    encodeNibbles c (fieldsOf w).x (fieldsOf w).y (fieldsOf w).n = w :=
  BitVec.eq_of_toNat_eq hc ▸ encodeNibbles_fieldsOf w

theorem encodeImm_of_class_nn (hc : (fieldsOf w).c.toNat = c.toNat) (hnn : (fieldsOf w).nn.toNat = nn.toNat) :
    encodeImm c (fieldsOf w).x nn = w :=
  BitVec.eq_of_toNat_eq hnn ▸ encodeImm_of_class hc

theorem encodeNibbles_of_class_n (hc : (fieldsOf w).c.toNat = c.toNat) (hn : (fieldsOf w).n.toNat = n.toNat) :
    encodeNibbles c (fieldsOf w).x (fieldsOf w).y n = w :=
  BitVec.eq_of_toNat_eq hn ▸ encodeNibbles_of_class hc

/-! The second level of the decoder (`30_encoding.md` R74), one class at a time. -/

theorem encode_of_selectClass0 (h : selectClass0 (fieldsOf w) = .ok i) : encode i = w := by
  unfold selectClass0 at h
  split at h <;> cases h
  case h_1 hw | h_2 hw => exact (BitVec.eq_of_toNat_eq hw).symm

theorem encode_of_selectClass8 (hc : (fieldsOf w).c.toNat = 0x8) (h : selectClass8 (fieldsOf w) = .ok i) :
    encode i = w := by
  unfold selectClass8 at h
  split at h <;> cases h
  all_goals exact encodeNibbles_of_class_n hc ‹_›

theorem encode_of_selectClassE (hc : (fieldsOf w).c.toNat = 0xE) (h : selectClassE (fieldsOf w) = .ok i) :
    encode i = w := by
  unfold selectClassE at h
  split at h <;> cases h
  all_goals exact encodeImm_of_class_nn hc ‹_›

theorem encode_of_selectClassF (hc : (fieldsOf w).c.toNat = 0xF) (h : selectClassF (fieldsOf w) = .ok i) :
    encode i = w := by
  unfold selectClassF at h
  split at h <;> cases h
  all_goals exact encodeImm_of_class_nn hc ‹_›

/-- A word that decodes is the encoding of what it decodes to: the constructor keeps each field the class leaves
open. -/
theorem encode_of_decode (h : decode w = .ok i) : encode i = w := by
  unfold decode select at h
  split at h
  case h_1 => exact encode_of_selectClass0 h
  case h_9 hc => exact encode_of_selectClass8 hc h
  case h_15 hc => exact encode_of_selectClassE hc h
  case h_16 =>
    have hc : (fieldsOf w).c.toNat = 0xF := by
      have hlt := (fieldsOf w).c.isLt
      simp only [imp_false] at *
      omega
    exact encode_of_selectClassF hc h
  all_goals cases h
  case h_2 hc | h_3 hc | h_11 hc | h_12 hc => exact encodeAddr_of_class hc
  case h_4 hc | h_5 hc | h_7 hc | h_8 hc | h_13 hc => exact encodeImm_of_class hc
  case h_6 hc | h_10 hc | h_14 hc => exact encodeNibbles_of_class hc

end

/-- Settles O3: `encode_of_decode`. -/
theorem encodeOfDecodeIsTheWord : Obligations.EncodeOfDecodeIsTheWord := fun _ _ => encode_of_decode

/-! ### The rows of the opcode map (`30_encoding.md` R76) -/

section
variable {w : Word} {c n : Nibble} {nn : Byte} {i : Instr}

/-- A field that the mask keeps whole is the field of the match value. -/
theorem extractLsb'_eq_of_and {m v : Word} (start len : Nat) (h : w &&& m = v)
    (hm : m.extractLsb' start len = BitVec.allOnes len) : w.extractLsb' start len = v.extractLsb' start len := by
  rw [← h, BitVec.extractLsb'_and, hm, BitVec.and_allOnes]

/-! A word that matches a row's mask and value is encoded by the row's fixed fields and its own open ones. -/

theorem encodeAddr_of_and (h : w &&& 0xF000 = encodeAddr c 0) : encodeAddr c (fieldsOf w).nnn = w := by
  obtain ⟨hc, -⟩ := fieldsOf_encodeAddr c 0
  exact encodeAddr_of_class (congrArg _ ((extractLsb'_eq_of_and 12 4 h (by decide)).trans hc))

theorem encodeImm_of_and (h : w &&& 0xF000 = encodeImm c 0 0) : encodeImm c (fieldsOf w).x (fieldsOf w).nn = w := by
  obtain ⟨hc, -, -⟩ := fieldsOf_encodeImm c 0 0
  exact encodeImm_of_class (congrArg _ ((extractLsb'_eq_of_and 12 4 h (by decide)).trans hc))

theorem encodeNibbles_of_and (h : w &&& 0xF000 = encodeNibbles c 0 0 0) :
    encodeNibbles c (fieldsOf w).x (fieldsOf w).y (fieldsOf w).n = w := by
  obtain ⟨hc, -, -, -⟩ := fieldsOf_encodeNibbles c 0 0 0
  exact encodeNibbles_of_class (congrArg _ ((extractLsb'_eq_of_and 12 4 h (by decide)).trans hc))

theorem encodeNibbles_of_and_n (h : w &&& 0xF00F = encodeNibbles c 0 0 n) :
    encodeNibbles c (fieldsOf w).x (fieldsOf w).y n = w := by
  obtain ⟨hc, -, -, hn⟩ := fieldsOf_encodeNibbles c 0 0 n
  exact encodeNibbles_of_class_n (congrArg _ ((extractLsb'_eq_of_and 12 4 h (by decide)).trans hc))
    (congrArg _ ((extractLsb'_eq_of_and 0 4 h (by decide)).trans hn))

theorem encodeImm_of_and_nn (h : w &&& 0xF0FF = encodeImm c 0 nn) : encodeImm c (fieldsOf w).x nn = w := by
  obtain ⟨hc, -, hnn⟩ := fieldsOf_encodeImm c 0 nn
  exact encodeImm_of_class_nn (congrArg _ ((extractLsb'_eq_of_and 12 4 h (by decide)).trans hc))
    (congrArg _ ((extractLsb'_eq_of_and 0 8 h (by decide)).trans hnn))

theorem eq_of_and_allOnes {v : Word} (h : w &&& 0xFFFF = v) : v = w := h ▸ BitVec.and_allOnes

end

/-- Every word that matches the row is the word of an instruction that bears the row's name: the converse of
`Laws.EncodeMatchesRow.Statement`. -/
def OpRow.MatchesEncodings (r : OpRow) : Prop :=
  ∀ w, w &&& r.mask = r.value → ∃ i : Instr, encode i = w ∧ i.mnemonic = r.pattern

theorem opcodeRowsLow_matchEncodings : ∀ r ∈ opcodeRowsLow, r.MatchesEncodings := by
  simp only [opcodeRowsLow, List.forall_mem_cons]
  exact ⟨
    fun _ h => ⟨.cls, eq_of_and_allOnes h, rfl⟩,
    fun _ h => ⟨.ret, eq_of_and_allOnes h, rfl⟩,
    fun _ h => ⟨.jp _, encodeAddr_of_and h, rfl⟩,
    fun _ h => ⟨.call _, encodeAddr_of_and h, rfl⟩,
    fun _ h => ⟨.seImm _ _, encodeImm_of_and h, rfl⟩,
    fun _ h => ⟨.sneImm _ _, encodeImm_of_and h, rfl⟩,
    fun _ h => ⟨.seReg _ _ _, encodeNibbles_of_and h, rfl⟩,
    fun _ h => ⟨.ldImm _ _, encodeImm_of_and h, rfl⟩,
    fun _ h => ⟨.addImm _ _, encodeImm_of_and h, rfl⟩,
    List.forall_mem_nil _⟩

theorem opcodeRowsEight_matchEncodings : ∀ r ∈ opcodeRowsEight, r.MatchesEncodings := by
  simp only [opcodeRowsEight, List.forall_mem_cons]
  exact ⟨
    fun _ h => ⟨.ldReg _ _, encodeNibbles_of_and_n h, rfl⟩,
    fun _ h => ⟨.orReg _ _, encodeNibbles_of_and_n h, rfl⟩,
    fun _ h => ⟨.andReg _ _, encodeNibbles_of_and_n h, rfl⟩,
    fun _ h => ⟨.xorReg _ _, encodeNibbles_of_and_n h, rfl⟩,
    fun _ h => ⟨.addReg _ _, encodeNibbles_of_and_n h, rfl⟩,
    fun _ h => ⟨.subReg _ _, encodeNibbles_of_and_n h, rfl⟩,
    fun _ h => ⟨.shrReg _ _, encodeNibbles_of_and_n h, rfl⟩,
    fun _ h => ⟨.subnReg _ _, encodeNibbles_of_and_n h, rfl⟩,
    fun _ h => ⟨.shlReg _ _, encodeNibbles_of_and_n h, rfl⟩,
    List.forall_mem_nil _⟩

theorem opcodeRowsHigh_matchEncodings : ∀ r ∈ opcodeRowsHigh, r.MatchesEncodings := by
  simp only [opcodeRowsHigh, List.forall_mem_cons]
  exact ⟨
    fun _ h => ⟨.sneReg _ _ _, encodeNibbles_of_and h, rfl⟩,
    fun _ h => ⟨.ldI _, encodeAddr_of_and h, rfl⟩,
    fun _ h => ⟨.jpV0 _, encodeAddr_of_and h, rfl⟩,
    fun _ h => ⟨.rnd _ _, encodeImm_of_and h, rfl⟩,
    fun _ h => ⟨.drw _ _ _, encodeNibbles_of_and h, rfl⟩,
    fun _ h => ⟨.skp _, encodeImm_of_and_nn h, rfl⟩,
    fun _ h => ⟨.sknp _, encodeImm_of_and_nn h, rfl⟩,
    List.forall_mem_nil _⟩

theorem opcodeRowsF_matchEncodings : ∀ r ∈ opcodeRowsF, r.MatchesEncodings := by
  simp only [opcodeRowsF, List.forall_mem_cons]
  exact ⟨
    fun _ h => ⟨.ldVxDT _, encodeImm_of_and_nn h, rfl⟩,
    fun _ h => ⟨.ldVxK _, encodeImm_of_and_nn h, rfl⟩,
    fun _ h => ⟨.ldDTVx _, encodeImm_of_and_nn h, rfl⟩,
    fun _ h => ⟨.ldSTVx _, encodeImm_of_and_nn h, rfl⟩,
    fun _ h => ⟨.addI _, encodeImm_of_and_nn h, rfl⟩,
    fun _ h => ⟨.ldF _, encodeImm_of_and_nn h, rfl⟩,
    fun _ h => ⟨.ldB _, encodeImm_of_and_nn h, rfl⟩,
    fun _ h => ⟨.storeRegs _, encodeImm_of_and_nn h, rfl⟩,
    fun _ h => ⟨.loadRegs _, encodeImm_of_and_nn h, rfl⟩,
    List.forall_mem_nil _⟩

theorem opcodeMap_matchEncodings : ∀ r ∈ opcodeMap, r.MatchesEncodings := by
  simp only [opcodeMap, List.forall_mem_append]
  exact ⟨⟨⟨opcodeRowsLow_matchEncodings, opcodeRowsEight_matchEncodings⟩, opcodeRowsHigh_matchEncodings⟩,
    opcodeRowsF_matchEncodings⟩

theorem opcodeMap_patterns_nodup : (opcodeMap.map OpRow.pattern).Nodup := by decide

/-- A row is known by its name. -/
theorem eq_of_pattern_eq {r q : OpRow} (hr : r ∈ opcodeMap) (hq : q ∈ opcodeMap) (h : r.pattern = q.pattern) :
    r = q :=
  List.inj_on_of_nodup_map opcodeMap_patterns_nodup hr hq h

open Laws.EncodeMatchesRow in
/-- The word of every instruction matches its own row. -/
theorem encode_matchesRow : ∀ i : Instr, Laws.EncodeMatchesRow.Statement i
  | .cls => cls
  | .ret => ret
  | .jp nnn => jp nnn
  | .call nnn => call nnn
  | .seImm x nn => seImm x nn
  | .sneImm x nn => sneImm x nn
  | .seReg x y n => seReg x y n
  | .ldImm x nn => ldImm x nn
  | .addImm x nn => addImm x nn
  | .ldReg x y => ldReg x y
  | .orReg x y => orReg x y
  | .andReg x y => andReg x y
  | .xorReg x y => xorReg x y
  | .addReg x y => addReg x y
  | .subReg x y => subReg x y
  | .shrReg x y => shrReg x y
  | .subnReg x y => subnReg x y
  | .shlReg x y => shlReg x y
  | .sneReg x y n => sneReg x y n
  | .ldI nnn => ldI nnn
  | .jpV0 nnn => jpV0 nnn
  | .rnd x nn => rnd x nn
  | .drw x y n => drw x y n
  | .skp x => skp x
  | .sknp x => sknp x
  | .ldVxDT x => ldVxDT x
  | .ldVxK x => ldVxK x
  | .ldDTVx x => ldDTVx x
  | .ldSTVx x => ldSTVx x
  | .addI x => addI x
  | .ldF x => ldF x
  | .ldB x => ldB x
  | .storeRegs x => storeRegs x
  | .loadRegs x => loadRegs x

section
variable {w : Word} {r q : OpRow} {i : Instr}

theorem exists_row_of_decode (h : decode w = .ok i) :
    ∃ r ∈ opcodeMap, r.pattern = i.mnemonic ∧ w &&& r.mask = r.value := by
  obtain ⟨r, hr, hp, hm⟩ := encode_matchesRow i
  rw [encode_of_decode h] at hm
  exact ⟨r, hr, hp, beq_iff_eq.1 hm⟩

theorem exists_decode_of_matches (hr : r ∈ opcodeMap) (h : w &&& r.mask = r.value) :
    ∃ i, decode w = .ok i ∧ i.mnemonic = r.pattern := by
  obtain ⟨i, rfl, hp⟩ := opcodeMap_matchEncodings r hr w h
  exact ⟨i, decode_encode i, hp⟩

theorem matches_iff_exists_decode (hr : r ∈ opcodeMap) :
    w &&& r.mask = r.value ↔ ∃ i, decode w = .ok i ∧ i.mnemonic = r.pattern := by
  refine ⟨exists_decode_of_matches hr, fun ⟨i, hd, hp⟩ => ?_⟩
  obtain ⟨q, hq, hqp, hm⟩ := exists_row_of_decode hd
  exact eq_of_pattern_eq hq hr (hqp.trans hp) ▸ hm

/-- Two rows that a word matches both bear the name of what it decodes to. -/
theorem row_eq_of_matches (hr : r ∈ opcodeMap) (hq : q ∈ opcodeMap) (hwr : w &&& r.mask = r.value)
    (hwq : w &&& q.mask = q.value) : r = q := by
  obtain ⟨i, hi, hip⟩ := exists_decode_of_matches hr hwr
  obtain ⟨j, hj, hjp⟩ := exists_decode_of_matches hq hwq
  obtain rfl : i = j := Except.ok.inj (hi.symm.trans hj)
  exact eq_of_pattern_eq hr hq (hip.symm.trans hjp)

theorem decode_error_of_no_match (h : ∀ r ∈ opcodeMap, w &&& r.mask ≠ r.value) : ∃ e, decode w = .error e := by
  cases hd : decode w with
  | error e => exact ⟨e, rfl⟩
  | ok i =>
    obtain ⟨r, hr, -, hm⟩ := exists_row_of_decode hd
    exact absurd hm (h r hr)

end

/-- Settles O4: a word that matches a row is an encoding of that row, which decodes back; a decoded word matches the
row of its instruction, and names tell rows apart. -/
theorem decoderSelectsTheMatchingRow : Obligations.DecoderSelectsTheMatchingRow := fun _ =>
  ⟨fun _ hr => matches_iff_exists_decode hr, fun _ hr _ hq => row_eq_of_matches hr hq, decode_error_of_no_match⟩

/-! ### The words that are rejected (`30_encoding.md` R78) -/

/-- The answer of the decoder, or of one of its levels, is no instruction. -/
def Rejects (r : Except DecodeReject Instr) : Prop := ∀ i, r ≠ .ok i

@[simp] theorem rejects_error (e : DecodeReject) : Rejects (.error e) := nofun

@[simp] theorem not_rejects_ok (i : Instr) : ¬Rejects (.ok i) := fun h => h i rfl

/-! In each level the arms that name a value give an instruction, and the last arm is left with the other values. -/

theorem rejects_selectClass0_iff (f : Fields) : Rejects (selectClass0 f) ↔ f.op ≠ 0x00E0 ∧ f.op ≠ 0x00EE := by
  unfold selectClass0
  split
  case h_3 => simp_all [← BitVec.toNat_inj]
  all_goals simp [← BitVec.toNat_inj, *]

theorem rejects_selectClass8_iff (f : Fields) :
    Rejects (selectClass8 f) ↔ f.n ∈ ([0x8, 0x9, 0xA, 0xB, 0xC, 0xD, 0xF] : List Nibble) := by
  simp only [List.mem_cons, List.not_mem_nil, or_false, ← BitVec.toNat_inj, BitVec.reduceToNat]
  unfold selectClass8
  split
  case h_10 =>
    have hn := f.n.isLt
    simp only [imp_false, rejects_error, true_iff] at *
    omega
  all_goals simp [*]

theorem rejects_selectClassE_iff (f : Fields) : Rejects (selectClassE f) ↔ f.nn ∉ ([0x9E, 0xA1] : List Byte) := by
  unfold selectClassE
  split
  case h_3 => simp_all [← BitVec.toNat_inj]
  all_goals simp [← BitVec.toNat_inj, *]

theorem rejects_selectClassF_iff (f : Fields) :
    Rejects (selectClassF f) ↔
      f.nn ∉ ([0x07, 0x0A, 0x15, 0x18, 0x1E, 0x29, 0x33, 0x55, 0x65] : List Byte) := by
  unfold selectClassF
  split
  case h_10 => simp_all [← BitVec.toNat_inj]
  all_goals simp [← BitVec.toNat_inj, *]

/-- Only a class with a second level rejects, and it rejects what its second level does. -/
theorem rejects_select_iff (f : Fields) :
    Rejects (select f) ↔
      (f.c = 0x0 ∧ Rejects (selectClass0 f)) ∨ (f.c = 0x8 ∧ Rejects (selectClass8 f)) ∨
      (f.c = 0xE ∧ Rejects (selectClassE f)) ∨ (f.c = 0xF ∧ Rejects (selectClassF f)) := by
  unfold select
  split
  case h_16 =>
    have hc : f.c.toNat = 0xF := by
      have hlt := f.c.isLt
      simp only [imp_false] at *
      omega
    simp [← BitVec.toNat_inj, hc]
  all_goals simp [← BitVec.toNat_inj, *]

theorem rejects_decode_iff_no_match (w : Word) :
    Rejects (decode w) ↔ ∀ r ∈ opcodeMap, w &&& r.mask ≠ r.value := by
  refine ⟨fun h r hr hm => ?_, fun h => ?_⟩
  · obtain ⟨i, hi, -⟩ := exists_decode_of_matches hr hm
    exact h i hi
  · obtain ⟨e, he⟩ := decode_error_of_no_match h
    exact he ▸ rejects_error e

/-- Settles O5: the four classes with a second level, each with what its second level rejects. -/
theorem illegalWordsAreTheFourFamilies : Obligations.IllegalWordsAreTheFourFamilies := by
  refine fun w => ⟨?_, rejects_decode_iff_no_match w⟩
  have h := rejects_select_iff (fieldsOf w)
  rwa [rejects_selectClass0_iff, rejects_selectClass8_iff, rejects_selectClassE_iff, rejects_selectClassF_iff] at h

end Sys2Proof
end

section
/-! PROOF. The step of a batch at a word that does not decode, and a pc past the end of memory (O9). -/

namespace Sys2Proof.Machine

section
variable {s t : State} {left : Nat}

/-- With no wait and no fault a step of a batch is a cycle (`40_cycle.md` R90). -/
theorem batchStep_of_cycle (hw : s.wait = .idle) (hf : s.fault = none) (hc : cycle s = .next t) :
    batchStep (left + 1) s = .next (t.afterCycle (left + 1)) := by
  simp [batchStep, hw, hf, hc]

/-- A fault ends the batch (`47_scheduler_host.md` R193). -/
theorem State.afterCycle_of_fault (hf : s.fault ≠ none) : s.afterCycle left = s.setPhase .finish := by
  simp [State.afterCycle, hf]

theorem cycle_of_decode_error {e : DecodeReject} (hd : decode s.fetchWord = .error e) :
    cycle s = .next (s.raise .illegalInstruction s.fetchWord) := by
  simp [cycle, hd]

/-- A word that does not decode is recorded with its address, and the batch is over (`40_cycle.md` R94). -/
theorem step_of_decode_error {e : DecodeReject} (hp : s.phase = .batch (left + 1)) (hw : s.wait = .idle)
    (hf : s.fault = none) (hd : decode s.fetchWord = .error e) :
    step s = .next { s with
      out := [], fault := some ⟨.illegalInstruction, s.pc, s.fetchWord⟩, phase := .finish } := by
  have hc : cycle (s.setOut []) = .next ((s.setOut []).raise .illegalInstruction s.fetchWord) :=
    cycle_of_decode_error hd
  rw [step_of_batch hp, batchStep_of_cycle (s := s.setOut []) hw hf hc,
    State.afterCycle_of_fault (by simp [State.raise])]
  rfl

end

/-- Settles O9: a fetch from 0x1000 on reads 0x0000, which is illegal. -/
theorem runningOffTheEndRaisesIllegalInstruction : Obligations.RunningOffTheEndRaisesIllegalInstruction := by
  intro s left hp hw hf hpc
  obtain ⟨-, -, hpast⟩ := fetchIsBigEndianAndZeroPastMemory s
  have hword : s.fetchWord = 0x0000 := hpast hpc
  have hreject : decode 0x0000 = .error (.illegalClass0 0x0000) := by decide
  rw [step_of_decode_error hp hw hf (hword ▸ hreject), hword]

end Sys2Proof.Machine
end

section
/-! PROOF. The pc after every instruction, and the step of a batch as the effect of the word at pc (O53, O7, O8). -/

namespace Sys2Proof.Machine

/-! ### The pc after a skip and after a key test -/

theorem State.skipIf_pc (s : State) (c : Bool) : (s.skipIf c).pc = if c then s.pc + 4 else s.pc + 2 := rfl

theorem State.skipIf_not_pc (s : State) (c : Bool) : (s.skipIf (!c)).pc = if c then s.pc + 2 else s.pc + 4 := by
  cases c <;> rfl

theorem State.unmappedKey_pc (s : State) :
    s.unmappedKey.pc = if s.config.unmappedKeyPolicy = .stall then s.pc else s.pc + 2 := by
  unfold State.unmappedKey
  split
  next hp => rw [if_pos hp]
  next hp => rw [if_neg (by simp [hp])]; rfl

/-- A register value above 0xF names no key; below, its low nibble is the key (`46_keys.md` R170). -/
theorem keyOf_eq (v : Byte) : keyOf v = if 0x10 ≤ v.toNat then none else some (v.setWidth 4) := by
  unfold keyOf
  split
  · rw [if_neg (by omega)]; rfl
  · rw [if_pos (by omega)]

/-- EX9E, its key test split at the last key (`46_keys.md` R174, R175). -/
theorem execSkp_eq (x : Nibble) (s : State) : execSkp x s = .next
    (if 0x10 ≤ (s.reg x).toNat then s.unmappedKey else s.skipIf (s.key ((s.reg x).setWidth 4))) := by
  rw [execSkp, keyOf_eq]
  split_ifs <;> rfl

/-- EXA1, its key test split at the last key (`46_keys.md` R174, R176). -/
theorem execSknp_eq (x : Nibble) (s : State) : execSknp x s = .next
    (if 0x10 ≤ (s.reg x).toNat then s.unmappedKey else s.skipIf (!s.key ((s.reg x).setWidth 4))) := by
  rw [execSknp, keyOf_eq]
  split_ifs <;> rfl

/-- Settles O53: a fault is excluded, the skips choose by their test, the jumps set their target, 00EE pops, FX0A and
a stalled key test stay, and the others advance. -/
theorem pcAfterEveryInstruction : Obligations.PcAfterEveryInstruction := by
  intro i s t h _ hft
  rcases exec_cases h with ⟨code, rfl⟩ | hc
  · cases hft
  cases i with
  | seImm | seReg =>
    obtain rfl := Host.Outcome.next.inj h
    simp only [State.skipIf_pc, beq_iff_eq]
  | sneImm | sneReg =>
    obtain rfl := Host.Outcome.next.inj h
    simp only [State.skipIf_pc, bne_iff_ne]
  | skp x =>
    obtain rfl := Host.Outcome.next.inj ((execSkp_eq x s).symm.trans h)
    simp only [apply_ite State.pc, State.unmappedKey_pc, State.skipIf_pc]
  | sknp x =>
    obtain rfl := Host.Outcome.next.inj ((execSknp_eq x s).symm.trans h)
    simp only [apply_ite State.pc, State.unmappedKey_pc, State.skipIf_not_pc]
  | ret =>
    obtain ⟨rest, r, hs, rfl⟩ := hc
    simp only [hs, List.getLast?_concat, Option.getD_some, State.setPc_pc]
  | call => obtain ⟨_, rfl⟩ := hc; rfl
  | jp | jpV0 | ldVxK | cls => obtain rfl := hc; rfl
  | addReg | subReg | shrReg | subnReg | shlReg | drw => obtain ⟨_, _, rfl⟩ := hc; rfl
  | ldImm | addImm | ldReg | orReg | andReg | xorReg | ldVxDT | rnd | ldI | addI | ldF | ldDTVx | ldSTVx =>
    obtain ⟨_, rfl⟩ := hc
    rfl
  | ldB | storeRegs =>
    obtain ⟨a, bs, u, hw, rfl⟩ := hc
    obtain ⟨-, rfl⟩ := State.memWrite_eq_some hw
    rfl
  | loadRegs => obtain ⟨bs, -, rfl⟩ := hc; rfl

/-! ### The step of a batch -/

section
variable {s : State} {i : Instr}

theorem cycle_of_decode_ok (hd : decode s.fetchWord = .ok i) : cycle s = exec i s := by
  simp [cycle, hd]

/-- The batch goes on with a cycle left, no wait and no fault (`47_scheduler_host.md` R193). -/
theorem State.afterCycle_succ (s : State) (left : Nat) : s.afterCycle (left + 1) =
    { s with phase := if left = 0 ∨ s.wait ≠ .idle ∨ s.fault ≠ none then .finish else .batch left } := by
  have hlast : left + 1 ≤ 1 ↔ left = 0 := by omega
  simp only [State.afterCycle, State.setPhase, hlast, Nat.add_sub_cancel]

end

/-- Settles O7: with no wait and no fault a step of a batch is a cycle, and the word at pc decodes. -/
theorem stepRunsTheDecodedInstruction : Obligations.StepRunsTheDecodedInstruction := by
  intro s left i hp hw hf hd
  have hc : cycle (s.setOut []) = exec i { s with out := [] } := cycle_of_decode_ok hd
  rw [step_of_batch hp]
  cases he : exec i { s with out := [] } with
  | next t => rw [batchStep_of_cycle (s := s.setOut []) hw hf (hc.trans he), State.afterCycle_succ]
  | fault r => cases r
  | refused r => simp [batchStep, hw, hf, hc.trans he]

/-- Settles O8: the step at such a word is the record, and the fault port reads it. -/
theorem stepRaisesIllegalInstruction : Obligations.StepRaisesIllegalInstruction :=
  fun _ _ _ hp hw hf hd => ⟨_, step_of_decode_error hp hw hf hd, rfl, rfl⟩

end Sys2Proof.Machine
end

section
/-! PROOF. Control transfer: the call and the return, the jumps and the compare-and-skip instructions
(`41_control_flow.md`; O18 to O22). -/

namespace Sys2Proof.Machine

/-! ### The call and the return -/

section
variable {s : State}

theorem State.push_of_room (h : s.stack.length < 16) (v : Word) : s.push v = some (s.setStack (s.stack ++ [v])) :=
  if_neg (Nat.not_le.2 h)

/-- 2NNN with room on the stack (R102). -/
theorem exec_call_of_room (h : s.stack.length < 16) (nnn : Addr12) :
    exec (.call nnn) s = .next ((s.setStack (s.stack ++ [s.pc])).setPc (addrWord nnn)) := by
  show execCall nnn s = _
  simp [execCall, State.push_of_room h]

/-- 2NNN on a full stack (R102). -/
theorem exec_call_of_full (h : 16 ≤ s.stack.length) (nnn : Addr12) :
    exec (.call nnn) s = .next (s.raise .stackOverflow (encode (.call nnn))) := by
  show execCall nnn s = _
  simp [execCall, State.push_eq_none.2 h]

/-- 00EE on a stack that ends in `r` (R100). -/
theorem exec_ret_of_append {rest : List Word} {r : Word} (h : s.stack = rest ++ [r]) :
    exec .ret s = .next ((s.setStack rest).setPc (r + 2)) := by
  show execRet s = _
  simp [execRet, State.pop_append h]

/-- 00EE on an empty stack (R100). -/
theorem exec_ret_of_empty (h : s.stack = []) : exec .ret s = .next (s.raise .stackUnderflow (encode .ret)) := by
  show execRet s = _
  simp [execRet, State.pop_eq_none.2 h]

end

/-- Settles O21: the return pops the address the call has pushed, and each writes only the stack and pc. -/
theorem callThenReturnIsTheNextInstruction : Obligations.CallThenReturnIsTheNextInstruction := by
  intro s nnn hroom
  exact ⟨_, exec_call_of_room hroom nnn, exec_ret_of_append (rest := s.stack) (r := s.pc) rfl⟩

/-- Settles O19: `exec_call_of_room` and `exec_call_of_full`. -/
theorem callPushesItsOwnAddress : Obligations.CallPushesItsOwnAddress := by
  intro s nnn
  refine ⟨decode_encode (.call nnn), fun hroom => ?_, fun hfull => ?_⟩
  · exact ⟨_, exec_call_of_room hroom nnn, rfl, rfl, fun _ => rfl, fun _ => rfl, rfl⟩
  · exact ⟨_, exec_call_of_full hfull nnn, s.raise_faults .stackOverflow (.call nnn)⟩

/-- Settles O20: `exec_ret_of_append` and `exec_ret_of_empty`. -/
theorem returnGoesPastTheCall : Obligations.ReturnGoesPastTheCall := by
  refine ⟨decode_encode .ret, fun s => ⟨fun rest r hs => ?_, fun hempty => ?_⟩⟩
  · exact ⟨_, exec_ret_of_append hs, rfl, rfl, fun _ => rfl, fun _ => rfl, rfl⟩
  · exact ⟨_, exec_ret_of_empty hempty, s.raise_faults .stackUnderflow .ret⟩

/-! ### The jumps and the skips -/

/-- BNNN's target is the exact sum: it fits in 16 bits (R107). -/
theorem offsetTarget_toNat (nnn : Addr12) (v : Byte) : (offsetTarget nnn v).toNat = nnn.toNat + v.toNat := by
  have := nnn.isLt
  have := v.isLt
  rw [offsetTarget, BitVec.toNat_ofNat]
  omega

/-- Settles O18: each jump sets pc alone. -/
theorem jumpsSetPc : Obligations.JumpsSetPc := fun s nnn =>
  ⟨⟨decode_encode (.jp nnn), _, rfl, s.setPc_setsPc _⟩,
    decode_encode (.jpV0 nnn), _, rfl, offsetTarget_toNat nnn (s.reg 0), s.setPc_setsPc _⟩

/-- A skip sets pc alone, by its condition. -/
theorem State.skipIf_setsPc (s : State) {c : Bool} {p : Prop} [Decidable p] (h : c = true ↔ p) :
    SetsPc s (s.skipIf c) (if p then s.pc + 4 else s.pc + 2) := by
  rw [← if_congr h rfl rfl]
  exact s.setPc_setsPc _

/-- Settles O22: each of the four instructions is a skip by its comparison. -/
theorem skipsAdvanceByTwoOrFour : Obligations.SkipsAdvanceByTwoOrFour := fun s x y n nn =>
  ⟨⟨decode_encode (.seImm x nn), _, rfl, s.skipIf_setsPc beq_iff_eq⟩,
    ⟨decode_encode (.sneImm x nn), _, rfl, s.skipIf_setsPc bne_iff_ne⟩,
    ⟨decode_encode (.seReg x y n), _, rfl, s.skipIf_setsPc beq_iff_eq⟩,
    decode_encode (.sneReg x y n), _, rfl, s.skipIf_setsPc bne_iff_ne⟩

end Sys2Proof.Machine
end

section
/-! PROOF. Register loads and arithmetic (`42_register_alu.md`; O11 to O17): each operation on bytes in the unsigned
arithmetic of the spec, and each instruction as one write of its result, with its flag where it has one. -/

namespace Sys2Proof.Machine

/-! ### Bytes as unsigned numbers (`42_register_alu.md` R122) -/

theorem add_eq_ofNat_mod (a b : Byte) : a + b = BitVec.ofNat 8 ((a.toNat + b.toNat) % 256) :=
  BitVec.eq_of_toNat_eq (by simp)

theorem sub_eq_ofNat_mod (a b : Byte) : a - b = BitVec.ofNat 8 ((a.toNat + 256 - b.toNat) % 256) := by
  apply BitVec.eq_of_toNat_eq
  have := b.isLt
  rw [BitVec.toNat_sub, BitVec.toNat_ofNat]
  omega

theorem ushiftRight_one_eq_ofNat (v : Byte) : v >>> 1 = BitVec.ofNat 8 (v.toNat / 2) := by
  apply BitVec.eq_of_toNat_eq
  have := v.isLt
  rw [BitVec.toNat_ushiftRight, Nat.shiftRight_eq_div_pow, BitVec.toNat_ofNat]
  omega

theorem shiftLeft_one_eq_ofNat_mod (v : Byte) : v <<< 1 = BitVec.ofNat 8 (v.toNat * 2 % 256) :=
  BitVec.eq_of_toNat_eq (by simp [Nat.shiftLeft_eq])

/-- The bit a right shift moves out is the parity. -/
theorem bitOutRight_eq (v : Byte) : bitOutRight v = decide (v.toNat % 2 = 1) := by
  rw [bitOutRight, bne, Bool.eq_iff_iff]
  simp [← BitVec.toNat_inj, Nat.and_one_is_mod]

/-- The bit a left shift moves out is the most significant one. -/
theorem bitOutLeft_eq (v : Byte) : bitOutLeft v = decide (128 ≤ v.toNat) := by
  have hbit : (v.toNat &&& 128) >>> 7 = v.toNat / 128 := by
    have := v.isLt
    rw [Nat.shiftRight_and_distrib, Nat.shiftRight_eq_div_pow, show 128 >>> 7 = 1 from rfl, Nat.and_one_is_mod]
    omega
  rw [bitOutLeft, bne, Bool.eq_iff_iff]
  simp [← BitVec.toNat_inj, hbit]

/-! ### The writes of a result -/

section
variable (s : State) (x : Nibble) {v w : Byte} {b c : Bool}

/-- `writeResult_writesReg` for a result that is written in another way. -/
theorem State.writeResult_writesReg_of_eq (hv : v = w) : WritesReg s (s.writeResult x v) x w :=
  hv ▸ s.writeResult_writesReg x v

/-- `writeResultFlag_writesRegFlag` for a result and a flag that are written in another way. -/
theorem State.writeResultFlag_writesRegFlag_of_eq (hv : v = w) (hb : b = c) :
    WritesRegFlag s (s.writeResultFlag x v b) x w c :=
  hv ▸ hb ▸ s.writeResultFlag_writesRegFlag x v b

end

/-! ### The instructions -/

/-- Settles O11: each of the three is one write of a result, the byte sum being the sum modulo 256. -/
theorem loadsAndImmediateAdd : Obligations.LoadsAndImmediateAdd := fun s x y nn =>
  ⟨⟨decode_encode (.ldImm x nn), _, rfl, s.writeResult_writesReg x nn⟩,
    ⟨decode_encode (.addImm x nn), _, rfl, s.writeResult_writesReg_of_eq x (add_eq_ofNat_mod _ _)⟩,
    decode_encode (.ldReg x y), _, rfl, s.writeResult_writesReg x (s.reg y)⟩

/-- Settles O12: each of the three is one write of a result. -/
theorem logicOperationsLeaveVF : Obligations.LogicOperationsLeaveVF := fun s x y =>
  ⟨⟨decode_encode (.orReg x y), _, rfl, s.writeResult_writesReg x _⟩,
    ⟨decode_encode (.andReg x y), _, rfl, s.writeResult_writesReg x _⟩,
    decode_encode (.xorReg x y), _, rfl, s.writeResult_writesReg x _⟩

/-- Settles O13: one write of the sum and the carry of the old values. -/
theorem addSetsCarry : Obligations.AddSetsCarry := fun s x y =>
  ⟨decode_encode (.addReg x y), _, rfl, s.writeResultFlag_writesRegFlag_of_eq x (add_eq_ofNat_mod _ _) rfl⟩

/-- Settles O14: one write of the difference and the no-borrow of the old values. -/
theorem subtractSetsNoBorrow : Obligations.SubtractSetsNoBorrow := fun s x y =>
  ⟨decode_encode (.subReg x y), _, rfl, s.writeResultFlag_writesRegFlag_of_eq x (sub_eq_ofNat_mod _ _) rfl⟩

/-- Settles O15: one write of the reversed difference and the no-borrow of the old values. -/
theorem subtractReversedSetsNoBorrow : Obligations.SubtractReversedSetsNoBorrow := fun s x y =>
  ⟨decode_encode (.subnReg x y), _, rfl, s.writeResultFlag_writesRegFlag_of_eq x (sub_eq_ofNat_mod _ _) rfl⟩

/-- Settles O16: each shift is one write of VY shifted and the bit moved out of VY (`execShrReg_eq`,
`execShlReg_eq`). -/
theorem shiftsMoveTheCopyOfVY : Obligations.ShiftsMoveTheCopyOfVY := fun s x y =>
  ⟨⟨decode_encode (.shrReg x y), _, execShrReg_eq x y s,
      s.writeResultFlag_writesRegFlag_of_eq x (ushiftRight_one_eq_ofNat _) (bitOutRight_eq _)⟩,
    decode_encode (.shlReg x y), _, execShlReg_eq x y s,
      s.writeResultFlag_writesRegFlag_of_eq x (shiftLeft_one_eq_ofNat_mod _) (bitOutLeft_eq _)⟩

/-- Settles O17: after the draw is counted, CXNN is one write of the masked byte. -/
theorem randomByteIsMasked : Obligations.RandomByteIsMasked := by
  intro s x nn
  obtain ⟨hresult, hothers, hpc, hmemory, hframe⟩ :=
    (s.setDraws (s.draws + 1)).writeResult_writesReg x (Config.randomByte s.draws &&& nn)
  refine ⟨decode_encode (.rnd x nn), _, rfl, hresult, fun hnn => ?_, hothers, hpc, hmemory, hframe⟩
  subst hnn
  exact hresult.trans BitVec.and_zero

end Sys2Proof.Machine
end

section
/-! PROOF. Index register and memory transfer (`43_index_memory.md`; O23 to O28): each instruction of the family by the
two outcomes of its check, then what a completed transfer leaves in memory or in the registers. -/

namespace Sys2Proof.Machine

/-! ### The index register -/

theorem toNat_ofNat_of_lt {w n : Nat} (h : n < 2 ^ w) : (BitVec.ofNat w n).toNat = n :=
  (BitVec.toNat_ofNat n w).trans (Nat.mod_eq_of_lt h)

theorem addrWord_toNat (nnn : Addr12) : (addrWord nnn).toNat = nnn.toNat :=
  toNat_ofNat_of_lt (Nat.lt_trans nnn.isLt (by decide))

/-- A glyph address is exact: it fits in 16 bits (R133). -/
theorem glyphAddress_toNat (v : Byte) : (glyphAddress v).toNat = 0x050 + v.toNat * 5 := by
  have hfit : 0x050 + v.toNat * 5 < 2 ^ 16 := by have := v.isLt; omega
  exact toNat_ofNat_of_lt hfit

section
variable {s : State} {x : Nibble}

/-- FX1E with a sum that fits in I (R131). -/
theorem exec_addI_of_le (h : s.I.toNat + (s.reg x).toNat ≤ 0xFFFF) :
    exec (.addI x) s = .next (s.setI (BitVec.ofNat 16 (s.I.toNat + (s.reg x).toNat))).advance :=
  if_neg (Nat.not_lt.2 h)

/-- FX1E with a sum above 0xFFFF (R131). -/
theorem exec_addI_of_lt (h : 0xFFFF < s.I.toNat + (s.reg x).toNat) :
    exec (.addI x) s = .next (s.raise .indexOverflow (encode (.addI x))) :=
  if_pos h

end

/-- Settles O23: each of the two writes I and pc alone, and its value fits in 16 bits. -/
theorem indexLoads : Obligations.IndexLoads := fun s x nnn =>
  ⟨⟨decode_encode (.ldI nnn), _, rfl, addrWord_toNat nnn, rfl, fun _ => rfl, fun _ => rfl, rfl⟩,
    decode_encode (.ldF x), _, rfl, glyphAddress_toNat (s.reg x), rfl, fun _ => rfl, fun _ => rfl, rfl⟩

/-- Settles O24: `exec_addI_of_le` and `exec_addI_of_lt`. -/
theorem addToIndexFaultsInsteadOfWrapping : Obligations.AddToIndexFaultsInsteadOfWrapping := by
  intro s x
  refine ⟨decode_encode (.addI x), fun hfit => ?_, fun hover => ?_⟩
  · have hsum : (BitVec.ofNat 16 (s.I.toNat + (s.reg x).toNat)).toNat = s.I.toNat + (s.reg x).toNat :=
      toNat_ofNat_of_lt (Nat.lt_succ_of_le hfit)
    exact ⟨_, exec_addI_of_le hfit, hsum, rfl, fun _ => rfl, fun _ => rfl, rfl⟩
  · exact ⟨_, exec_addI_of_lt hover, s.raise_faults .indexOverflow (.addI x)⟩

/-! ### The checks of a transfer (R132) -/

section
variable {s u : State} {x : Nibble} {a n : Nat} {bs : List Byte}

theorem State.memRead_of_le (h : a + n ≤ 0x1000) :
    s.memRead a n = some ((List.range n).map fun k => s.byteAt (a + k)) :=
  if_pos (spanInMemory_iff.2 (.inr h))

theorem State.exists_memWrite_of_le (h : a + bs.length ≤ 0x1000) : ∃ u, s.memWrite a bs = some u :=
  ⟨_, if_pos (spanInMemory_iff.2 (.inr h))⟩

theorem State.memWrite_of_lt (hbs : bs ≠ []) (h : 0x1000 < a + bs.length) : s.memWrite a bs = none :=
  State.memWrite_eq_none.2 ⟨hbs, h⟩

theorem State.regsUpTo_ne_nil (s : State) (x : Nibble) : s.regsUpTo x ≠ [] :=
  List.ne_nil_of_length_pos (by rw [s.length_regsUpTo x]; exact Nat.succ_pos _)

/-- FX33 with its digits inside memory (R134). -/
theorem exec_ldB_of_le (h : s.I.toNat + 2 ≤ 0xFFF) :
    ∃ u, s.memWrite s.I.toNat (decimalDigits (s.reg x)) = some u ∧ exec (.ldB x) s = .next u.advance := by
  obtain ⟨u, hw⟩ := State.exists_memWrite_of_le (s := s) (bs := decimalDigits (s.reg x)) (Nat.succ_le_succ h)
  refine ⟨u, hw, ?_⟩
  show execLdB x s = _
  rw [execLdB, hw]

/-- FX33 with a digit past 0xFFF (R134). -/
theorem exec_ldB_of_lt (h : 0xFFF < s.I.toNat + 2) :
    exec (.ldB x) s = .next (s.raise .memoryFault (encode (.ldB x))) := by
  show execLdB x s = _
  rw [execLdB, State.memWrite_of_lt (bs := decimalDigits (s.reg x)) (List.cons_ne_nil _ _) (Nat.succ_lt_succ h)]

/-- FX55 with V0 to VX inside memory (R135). -/
theorem exec_storeRegs_of_le (h : s.I.toNat + x.toNat ≤ 0xFFF) :
    ∃ u, s.memWrite s.I.toNat (s.regsUpTo x) = some u ∧ exec (.storeRegs x) s = .next u.advance := by
  have hspan : s.I.toNat + (s.regsUpTo x).length ≤ 0x1000 := by rw [s.length_regsUpTo x]; omega
  obtain ⟨u, hw⟩ := State.exists_memWrite_of_le (s := s) hspan
  refine ⟨u, hw, ?_⟩
  show execStoreRegs x s = _
  rw [execStoreRegs, hw]

/-- FX55 with VX past 0xFFF (R135). -/
theorem exec_storeRegs_of_lt (h : 0xFFF < s.I.toNat + x.toNat) :
    exec (.storeRegs x) s = .next (s.raise .memoryFault (encode (.storeRegs x))) := by
  have hspan : 0x1000 < s.I.toNat + (s.regsUpTo x).length := by rw [s.length_regsUpTo x]; omega
  show execStoreRegs x s = _
  rw [execStoreRegs, State.memWrite_of_lt (s.regsUpTo_ne_nil x) hspan]

/-- FX65 with V0 to VX inside memory (R136). -/
theorem exec_loadRegs_of_le (h : s.I.toNat + x.toNat ≤ 0xFFF) :
    exec (.loadRegs x) s = .next (s.setV (fillRegs s.V 0
      ((List.range (x.toNat + 1)).map fun k => s.byteAt (s.I.toNat + k)))).advance := by
  show execLoadRegs x s = _
  rw [execLoadRegs, State.memRead_of_le (Nat.succ_le_succ h)]

/-- FX65 with VX past 0xFFF (R136). -/
theorem exec_loadRegs_of_lt (h : 0xFFF < s.I.toNat + x.toNat) :
    exec (.loadRegs x) s = .next (s.raise .memoryFault (encode (.loadRegs x))) := by
  show execLoadRegs x s = _
  rw [execLoadRegs, State.memRead_eq_none.2 ⟨Nat.succ_ne_zero _, Nat.succ_lt_succ h⟩]

/-! ### What a transfer leaves -/

/-- A store and the advance of pc write the bytes of its span, and no other byte, register or field. -/
theorem State.memWrite_advance_frame (hs : Memory.wf s.config.font s.mem) (hw : s.memWrite a bs = some u) :
    SameBytesOutside s u.advance a bs.length ∧ u.advance.pc = s.pc + 2 ∧ (∀ k, u.advance.reg k = s.reg k) ∧
      u.advance = { s with mem := u.advance.mem, pc := u.advance.pc } := by
  refine ⟨(State.memWrite_sameBytesOutside hs hw).advance, ?_⟩
  rw [State.memWrite_frame hw]
  exact ⟨rfl, fun _ => rfl, rfl⟩

/-- A part of a byte is a byte: each decimal digit is stored as it is. -/
theorem toNat_ofNat_of_le_toNat {v : Byte} (h : n ≤ v.toNat) : (BitVec.ofNat 8 n).toNat = n :=
  toNat_ofNat_of_lt (Nat.lt_of_le_of_lt h v.isLt)

theorem State.getElem_regsUpTo (s : State) {k : Nibble} (h : k.toNat < (s.regsUpTo x).length) :
    (s.regsUpTo x)[k.toNat] = s.reg k := by
  simp [State.regsUpTo, State.reg]

/-- FX65's fill gives a register up to the last one filled its own byte. -/
theorem State.reg_setV_fillRegs_of_lt_length {k : Nibble} (h : k.toNat < bs.length) :
    (s.setV (fillRegs s.V 0 bs)).reg k = bs[k.toNat] := by
  simp only [State.reg, State.setV_V, getElem_fillRegs]
  rw [if_pos (by omega), Nat.sub_zero, List.getElem?_eq_getElem h, Option.getD_some]

end

/-! ### The transfers -/

/-- Settles O25: FX33 is a store of the three digits at I, or the fault. -/
theorem decimalDigitsAreStored : Obligations.DecimalDigitsAreStored := by
  intro s x hs
  refine ⟨decode_encode (.ldB x), fun hfit => ?_, fun hover => ?_⟩
  · obtain ⟨u, hw, hexec⟩ := exec_ldB_of_le (x := x) hfit
    have hbyte (j : Nat) (hj : j < 3) : u.advance.byteAt (s.I.toNat + j) = (decimalDigits (s.reg x))[j] :=
      State.byteAt_memWrite_add hs hw hj
    refine ⟨_, hexec, ?_, ?_, ?_, State.memWrite_advance_frame hs hw⟩
    · exact (congrArg BitVec.toNat (hbyte 0 (by decide))).trans (toNat_ofNat_of_le_toNat (Nat.div_le_self _ _))
    · exact (congrArg BitVec.toNat (hbyte 1 (by decide))).trans
        (toNat_ofNat_of_le_toNat ((Nat.mod_le _ _).trans (Nat.div_le_self _ _)))
    · exact (congrArg BitVec.toNat (hbyte 2 (by decide))).trans (toNat_ofNat_of_le_toNat (Nat.mod_le _ _))
  · exact ⟨_, exec_ldB_of_lt hover, s.raise_faults .memoryFault (.ldB x)⟩

/-- Settles O26: FX55 is a store of V0 to VX at I, or the fault. -/
theorem registersAreStored : Obligations.RegistersAreStored := by
  intro s x hs
  refine ⟨decode_encode (.storeRegs x), fun hfit => ?_, fun hover => ?_⟩
  · obtain ⟨u, hw, hexec⟩ := exec_storeRegs_of_le hfit
    refine ⟨_, hexec, fun k hk => ?_, s.length_regsUpTo x ▸ State.memWrite_advance_frame hs hw⟩
    have hlen : k.toNat < (s.regsUpTo x).length := s.length_regsUpTo x ▸ Nat.lt_succ_of_le hk
    exact (State.byteAt_memWrite_add hs hw hlen).trans (s.getElem_regsUpTo hlen)
  · exact ⟨_, exec_storeRegs_of_lt hover, s.raise_faults .memoryFault (.storeRegs x)⟩

/-- Settles O27: FX65 fills V0 to VX with the bytes from I on, or it is the fault. -/
theorem registersAreLoaded : Obligations.RegistersAreLoaded := by
  intro s x
  refine ⟨decode_encode (.loadRegs x), fun hfit => ?_, fun hover => ?_⟩
  · refine ⟨_, exec_loadRegs_of_le hfit, fun k hk => ?_, fun k hk => ?_, rfl, fun _ => rfl, rfl⟩
    · refine (State.reg_setV_fillRegs_of_lt_length (s := s) (k := k) ?_).trans ?_
      · simpa using Nat.lt_succ_of_le hk
      · simp
    · exact State.reg_setV_fillRegs_of_length_le (s := s) (by simpa using hk)
  · exact ⟨_, exec_loadRegs_of_lt hover, s.raise_faults .memoryFault (.loadRegs x)⟩

/-- Settles O28: the load reads at the same I the bytes that the store left (O26, O27). -/
theorem storeThenLoadRestoresRegisters : Obligations.StoreThenLoadRestoresRegisters := by
  intro s t u x hs hfit hstore hmem hconfig hI
  obtain ⟨-, hstored, -⟩ := registersAreStored s x hs
  obtain ⟨t', hstore', hbytes, -, -, -, hframe⟩ := hstored hfit
  obtain rfl : t = t' := Host.Outcome.next.inj (hstore.symm.trans hstore')
  have hIs : u.I = s.I := hI.trans (by rw [hframe])
  obtain ⟨-, hloaded, -⟩ := registersAreLoaded u x
  obtain ⟨v, hload, hregs, -⟩ := hloaded (hIs ▸ hfit)
  refine ⟨v, hload, fun k hk => ?_⟩
  calc v.reg k
    _ = u.byteAt (s.I.toNat + k.toNat) := hIs ▸ hregs k hk
    _ = t.byteAt (s.I.toNat + k.toNat) := State.byteAt_congr hmem hconfig _
    _ = s.reg k := hbytes k hk

end Sys2Proof.Machine
end

section
/-! PROOF. The display (`44_display.md`; O29 to O33): 00E0, the render output, and DXYN as the plots of `spritePixels`
one after another. No pixel stands twice in that list, so that each plot sees the pixel as it was before the draw. -/

namespace Sys2Proof.Machine

/-- Settles O29: the blank framebuffer is off everywhere, and 00E0 writes it and pc alone. -/
theorem clearTurnsEveryPixelOff : Obligations.ClearTurnsEveryPixelOff :=
  ⟨decode_encode .cls, fun _ => ⟨_, rfl, Framebuffer.pixel_blank, rfl, fun _ => rfl, fun _ => rfl, rfl⟩⟩

/-! ### The render output (R148) -/

section
variable {α : Type} {f : Nat → List α} {k : Nat}

theorem length_flatMap_range (hf : ∀ i, (f i).length = k) (n : Nat) : ((List.range n).flatMap f).length = k * n := by
  simp [List.length_flatMap, hf, Nat.mul_comm]

/-- Where every block has `k` entries, entry `j` of block `i` stands at `k·i + j`. -/
theorem getElem?_flatMap_range (hf : ∀ i, (f i).length = k) {n i j : Nat} (hi : i < n) (hj : j < k) :
    ((List.range n).flatMap f)[k * i + j]? = (f i)[j]? := by
  induction n with
  | zero => exact absurd hi (Nat.not_lt_zero i)
  | succ n ih =>
    have hlen : ((List.range n).flatMap f).length = k * n := length_flatMap_range hf n
    rw [List.range_succ, List.flatMap_append, List.flatMap_singleton]
    rcases Nat.lt_succ_iff_lt_or_eq.1 hi with hin | rfl
    · have hblock : k * i + j < k * n := by
        calc k * i + j
          _ < k * (i + 1) := Nat.add_lt_add_left hj _
          _ ≤ k * n := Nat.mul_le_mul_left k hin
      rw [List.getElem?_append_left (hlen ▸ hblock), ih hin]
    · rw [List.getElem?_append_right (hlen ▸ Nat.le_add_right _ _), hlen, Nat.add_sub_cancel_left]

end

/-- Settles O33: the output is 2048 blocks of four bytes, and pixel (x, y) is block 64·y + x. -/
theorem renderOutputIsRowMajor : Obligations.RenderOutputIsRowMajor := by
  refine fun c fb => ⟨length_flatMap_range (fun _ => Vector.length_toList) 2048, fun x y j hx hy => ?_⟩
  have hcol : (64 * y + x) % 64 = x := by omega
  have hrow : (64 * y + x) / 64 = y := by omega
  rw [renderBytes, getElem?_flatMap_range (fun _ => Vector.length_toList) (by omega) j.isLt, hcol, hrow]
  unfold pixelBytes
  split <;> simp

/-! ### Pixels -/

section
variable {fb : Framebuffer} {p q : Nat × Nat}

/-- Inverting a pixel of the screen changes that pixel alone (R142). -/
theorem Framebuffer.pixel_flip (hx : p.1 < 64) (hy : p.2 < 32) :
    Framebuffer.pixel (Framebuffer.flip fb p.1 p.2) q.1 q.2 = (Framebuffer.pixel fb q.1 q.2 ^^ decide (q = p)) := by
  obtain ⟨px, py⟩ := p
  obtain ⟨qx, qy⟩ := q
  simp only [Prod.mk.injEq]
  by_cases hq : qx < 64 ∧ qy < 32
  · obtain ⟨hqx, hqy⟩ := hq
    simp only [Framebuffer.pixel, Framebuffer.flip, dif_pos (And.intro hx hy), dif_pos (And.intro hqx hqy)]
    by_cases hcol : qx = px
    · subst hcol
      by_cases hrow : qy = py
      · subst hrow; simp
      · simp [hrow, Ne.symm hrow]
    · simp [hcol, Ne.symm hcol]
  · have hne : ¬(qx = px ∧ qy = py) := by rintro ⟨rfl, rfl⟩; exact hq ⟨hx, hy⟩
    simp [Framebuffer.pixel, hq, hne]

theorem Framebuffer.ext_pixel {fb gb : Framebuffer}
    (h : ∀ x y, x < 64 → y < 32 → Framebuffer.pixel fb x y = Framebuffer.pixel gb x y) : fb = gb := by
  refine Vector.ext fun x hx => Vector.ext fun y hy => ?_
  simpa [Framebuffer.pixel, hx, hy] using h x y hx hy

end

/-! ### Plotting a list of pixels -/

/-- The pixels `ps` plotted in their order. -/
def plotAll (mode : CollisionMode) (ps : List (Nat × Nat)) (cv : Canvas) : Canvas :=
  ps.foldl (fun c p => plot mode p.1 p.2 c) cv

/-- Pixels of the screen, each at most once: what the set bits of one sprite plot. -/
structure DistinctOnScreen (ps : List (Nat × Nat)) : Prop where
  nodup : ps.Nodup
  onScreen : ∀ p ∈ ps, p.1 < 64 ∧ p.2 < 32

theorem DistinctOnScreen.of_concat {ps : List (Nat × Nat)} {p : Nat × Nat} (h : DistinctOnScreen (ps ++ [p])) :
    DistinctOnScreen ps ∧ p ∉ ps ∧ p.1 < 64 ∧ p.2 < 32 := by
  obtain ⟨hnd, hscr⟩ := h
  obtain ⟨hps, -, hdisj⟩ := List.nodup_append.1 hnd
  exact ⟨⟨hps, fun q hq => hscr q (by simp [hq])⟩, fun hp => hdisj p hp p (by simp) rfl, hscr p (by simp)⟩

section
variable {mode : CollisionMode} {ps qs : List (Nat × Nat)} {p : Nat × Nat} {cv : Canvas}

theorem plotAll_append : plotAll mode (ps ++ qs) cv = plotAll mode qs (plotAll mode ps cv) := List.foldl_append

theorem plotAll_concat : plotAll mode (ps ++ [p]) cv = plot mode p.1 p.2 (plotAll mode ps cv) := plotAll_append

theorem plot_of_onScreen (h : p.1 < 64 ∧ p.2 < 32) : plot mode p.1 p.2 cv =
    (Framebuffer.flip cv.1 p.1 p.2, collisionStep mode cv.2 (Framebuffer.pixel cv.1 p.1 p.2)) :=
  if_pos h

/-- Plotting inverts exactly the pixels of the list. -/
theorem pixel_plotAll (h : DistinctOnScreen ps) (q : Nat × Nat) :
    Framebuffer.pixel (plotAll mode ps cv).1 q.1 q.2 = (Framebuffer.pixel cv.1 q.1 q.2 ^^ decide (q ∈ ps)) := by
  induction ps using List.reverseRecOn with
  | nil => simp [plotAll]
  | append_singleton ps p ih =>
    obtain ⟨hps, hp, hscr⟩ := h.of_concat
    rw [plotAll_concat, plot_of_onScreen hscr, Framebuffer.pixel_flip hscr.1 hscr.2, ih hps]
    by_cases hqp : q = p
    · simp [hqp, hp]
    · simp [hqp]

/-- A pixel not yet plotted is as it was before. -/
theorem pixel_plotAll_of_not_mem (h : DistinctOnScreen ps) (hp : p ∉ ps) :
    Framebuffer.pixel (plotAll mode ps cv).1 p.1 p.2 = Framebuffer.pixel cv.1 p.1 p.2 := by
  simp [pixel_plotAll h, hp]

/-- The flag after plotting `ps` and then `p` is one collision step from that after `ps`, with the pixel's state before
all of them. -/
theorem flag_plotAll_concat (h : DistinctOnScreen (ps ++ [p])) : (plotAll mode (ps ++ [p]) cv).2 =
    collisionStep mode (plotAll mode ps cv).2 (Framebuffer.pixel cv.1 p.1 p.2) := by
  obtain ⟨hps, hp, hscr⟩ := h.of_concat
  rw [plotAll_concat, plot_of_onScreen hscr, pixel_plotAll_of_not_mem hps hp]

theorem flagByte_or (a b : Bool) : flagByte a ||| flagByte b = flagByte (a || b) := by
  cases a <;> cases b <;> decide

/-- In ANY_BIT the flag gathers the old states of all the pixels (R147). -/
theorem flag_plotAll_anyBit (h : DistinctOnScreen ps) (hcv : cv.2 = 0) :
    (plotAll .anyBit ps cv).2 = flagByte (ps.any fun p => Framebuffer.pixel cv.1 p.1 p.2) := by
  induction ps using List.reverseRecOn with
  | nil => exact hcv
  | append_singleton ps p ih =>
    rw [flag_plotAll_concat h, ih h.of_concat.1, List.any_append, List.any_cons, List.any_nil, Bool.or_false]
    exact flagByte_or _ _

end

/-! ### The loops of a draw plot the sprite's pixels -/

/-- The pixels of the screen that the `n` bits of `b` from column `c` on set in row `py`. -/
def rowPixels (b : Byte) (x0 py c n : Nat) : List (Nat × Nat) :=
  ((List.range' c n).filter fun c => b.getLsbD (7 - c) && decide (x0 + c < 64 ∧ py < 32)).map fun c => (x0 + c, py)

section
variable (mode : CollisionMode) (b : Byte) (bs : List Byte) (x0 y0 : Nat) (cv : Canvas)

theorem spritePixels_cons :
    spritePixels x0 y0 (b :: bs) = rowPixels b x0 y0 0 8 ++ spritePixels x0 (y0 + 1) bs := by
  rw [spritePixels, List.length_cons, List.range_succ_eq_map (n := bs.length), List.flatMap_cons, List.flatMap_map,
    rowPixels, ← List.range_eq_range']
  simp only [spritePixels, Nat.succ_eq_add_one, Nat.add_zero, List.getElem?_cons_zero, Option.getD_some,
    List.getElem?_cons_succ, Nat.add_assoc, Nat.add_comm 1]

/-- The bits of one sprite byte: a bit off the screen plots nothing (`92_eei_decisions.md` D8). -/
theorem drawBits_eq_plotAll (c n : Nat) :
    drawBits mode b x0 y0 c n cv = plotAll mode (rowPixels b x0 y0 c n) cv := by
  induction n generalizing c cv with
  | zero => rfl
  | succ n ih =>
    rw [drawBits, ih, rowPixels, rowPixels, List.range'_succ, List.filter_cons]
    by_cases hbit : b.getLsbD (7 - c) = true
    · by_cases hscr : x0 + c < 64 ∧ y0 < 32
      · simp [hbit, hscr, plotAll]
      · simp [hbit, hscr, plotAll, plot]
    · simp [hbit]

theorem drawRows_eq_plotAll : drawRows mode x0 y0 bs cv = plotAll mode (spritePixels x0 y0 bs) cv := by
  induction bs generalizing y0 cv with
  | nil => rfl
  | cons b bs ih => rw [drawRows, ih, drawBits_eq_plotAll, spritePixels_cons, plotAll_append]

end

section
variable {b : Byte} {bs : List Byte} {x0 y0 : Nat} {p : Nat × Nat}

theorem onScreen_of_mem_rowPixels {c n : Nat} (h : p ∈ rowPixels b x0 y0 c n) :
    p.2 = y0 ∧ p.1 < 64 ∧ p.2 < 32 := by
  obtain ⟨k, hk, rfl⟩ := List.mem_map.1 h
  obtain ⟨-, hscr⟩ := Bool.and_eq_true_iff.1 (List.mem_filter.1 hk).2
  exact ⟨rfl, of_decide_eq_true hscr⟩

theorem onScreen_of_mem_spritePixels (h : p ∈ spritePixels x0 y0 bs) : y0 ≤ p.2 ∧ p.1 < 64 ∧ p.2 < 32 := by
  induction bs generalizing y0 with
  | nil => cases h
  | cons b bs ih =>
    rw [spritePixels_cons, List.mem_append] at h
    rcases h with hrow | hrest
    · obtain ⟨hy, hscr⟩ := onScreen_of_mem_rowPixels hrow
      exact ⟨hy.ge, hscr⟩
    · obtain ⟨hy, hscr⟩ := ih hrest
      exact ⟨Nat.le_of_succ_le hy, hscr⟩

theorem rowPixels_nodup (b : Byte) (x0 y0 c n : Nat) : (rowPixels b x0 y0 c n).Nodup := by
  refine List.Nodup.map (fun j k hjk => ?_) (List.Nodup.filter _ List.nodup_range')
  exact Nat.add_left_cancel (Prod.mk.inj hjk).1

/-- The first row lies above all the others. -/
theorem spritePixels_nodup (x0 y0 : Nat) (bs : List Byte) : (spritePixels x0 y0 bs).Nodup := by
  induction bs generalizing y0 with
  | nil => exact List.nodup_nil
  | cons b bs ih =>
    rw [spritePixels_cons]
    refine List.nodup_append.2 ⟨rowPixels_nodup .., ih _, fun p hp q hq hpq => ?_⟩
    obtain ⟨hy, -⟩ := onScreen_of_mem_rowPixels hp
    obtain ⟨hlow, -⟩ := onScreen_of_mem_spritePixels (hpq ▸ hq)
    omega

theorem spritePixels_distinctOnScreen (x0 y0 : Nat) (bs : List Byte) : DistinctOnScreen (spritePixels x0 y0 bs) :=
  ⟨spritePixels_nodup x0 y0 bs, fun _ hp => (onScreen_of_mem_spritePixels hp).2⟩

end

/-! ### DXYN -/

/-- The pixels that DXYN inverts, from the registers, I and memory of the state before it (R146). -/
def State.drawnPixels (s : State) (x y n : Nibble) : List (Nat × Nat) :=
  spritePixels ((s.reg x).toNat % 64) ((s.reg y).toNat % 32)
    ((List.range n.toNat).map fun r => s.byteAt (s.I.toNat + r))

/-- The canvas that DXYN leaves. -/
def State.drawnCanvas (s : State) (x y n : Nibble) : Canvas :=
  plotAll s.config.collisionMode (s.drawnPixels x y n) (s.FB, collisionStart s.config.collisionMode (s.reg vF))

section
variable {s : State} {x y n : Nibble}

theorem State.drawnPixels_distinctOnScreen : DistinctOnScreen (s.drawnPixels x y n) :=
  spritePixels_distinctOnScreen ..

/-- DXYN with its sprite bytes inside memory. -/
theorem exec_drw_of_le (h : n.toNat = 0 ∨ s.I.toNat + n.toNat ≤ 0x1000) : exec (.drw x y n) s =
    .next ((s.setFB (s.drawnCanvas x y n).1).setReg vF (s.drawnCanvas x y n).2).advance := by
  have hread : s.memRead s.I.toNat n.toNat = some ((List.range n.toNat).map fun r => s.byteAt (s.I.toNat + r)) :=
    if_pos (spanInMemory_iff.2 h)
  show execDrw x y n s = _
  rw [execDrw, hread]
  simp only [State.drawSprite, drawRows_eq_plotAll]
  rfl

/-- DXYN with a sprite byte past 0xFFF. -/
theorem exec_drw_of_lt (hn : 0 < n.toNat) (h : 0x1000 < s.I.toNat + n.toNat) :
    exec (.drw x y n) s = .next (s.raise .memoryFault (encode (.drw x y n))) := by
  show execDrw x y n s = _
  rw [execDrw, State.memRead_eq_none.2 ⟨Nat.ne_of_gt hn, h⟩]

end

/-- Settles O30: where the bytes lie in memory DXYN is the plots of its pixels, else it is the fault. -/
theorem drawInvertsTheSpritePixels : Obligations.DrawInvertsTheSpritePixels := by
  intro s x y n
  refine ⟨decode_encode (.drw x y n), fun hfit => ?_, fun hn hover => ?_⟩
  · refine ⟨_, exec_drw_of_le hfit, fun px py _ _ => ?_, fun k hk => ?_, rfl, fun _ => rfl, rfl⟩
    · exact pixel_plotAll State.drawnPixels_distinctOnScreen (px, py)
    · exact (s.setFB _).reg_setReg_ne hk _
  · exact ⟨_, exec_drw_of_lt hn hover, s.raise_faults .memoryFault (.drw x y n)⟩

/-- Settles O31: VF is the flag of the canvas, by `flag_plotAll_concat` in LAST_BIT and `flag_plotAll_anyBit` in
ANY_BIT. -/
theorem drawSetsTheCollisionFlag : Obligations.DrawSetsTheCollisionFlag := by
  intro s t x y n ps hfit hexec hps
  obtain rfl := Host.Outcome.next.inj ((exec_drw_of_le hfit).symm.trans hexec)
  have hdist : DistinctOnScreen ps := hps ▸ State.drawnPixels_distinctOnScreen (s := s) (x := x) (y := y) (n := n)
  have hflag : State.reg ((s.setFB (s.drawnCanvas x y n).1).setReg vF (s.drawnCanvas x y n).2).advance 0xF =
      (plotAll s.config.collisionMode ps (s.FB, collisionStart s.config.collisionMode (s.reg vF))).2 := by
    subst hps
    exact State.reg_setReg_self _ vF _
  rw [hflag]
  refine ⟨fun hmode hnil => ?_, fun hmode init p hinit => ?_, fun hmode => ?_⟩
  · rw [hmode, hnil]
    rfl
  · rw [hmode, hinit, flag_plotAll_concat (hinit ▸ hdist)]
    rfl
  · rw [hmode]
    exact flag_plotAll_anyBit hdist rfl

/-- Settles O32: the first draw leaves VX, VY, I and memory, so the second inverts the same pixels again (O30). -/
theorem drawingTwiceRestoresTheFramebuffer : Obligations.DrawingTwiceRestoresTheFramebuffer := by
  intro s t x y n hx hy hfit hexec
  obtain ⟨-, hdraw, -⟩ := drawInvertsTheSpritePixels s x y n
  obtain ⟨t', hexec', hpixel, hregs, -, hbytes, hframe⟩ := hdraw hfit
  obtain rfl : t = t' := Host.Outcome.next.inj (hexec.symm.trans hexec')
  have hI : t.I = s.I := by rw [hframe]
  obtain ⟨-, hredraw, -⟩ := drawInvertsTheSpritePixels t x y n
  obtain ⟨u, hexecu, hpixelu, -⟩ := hredraw (hI ▸ hfit)
  refine ⟨u, hexecu, Framebuffer.ext_pixel fun px py hpx hpy => ?_⟩
  rw [hpixelu px py hpx hpy, hpixel px py hpx hpy, hregs x hx, hregs y hy, hI, Bool.xor_assoc]
  simp only [hbytes _, Bool.xor_self, Bool.xor_false]

end Sys2Proof.Machine
end

section
/-! PROOF. The timers (`45_timers.md`): the instructions that move one byte (O34), the end of a tick (O42), and that
the mute flag decides no more than the bits and values that report it (O49). -/

namespace Sys2Proof.Machine

/-- Settles O34: FX07 is one write of a result; FX15 and FX18 each write their timer and pc alone. -/
theorem timerInstructionsMoveOneByte : Obligations.TimerInstructionsMoveOneByte := fun s x =>
  ⟨⟨decode_encode (.ldVxDT x), _, rfl, s.writeResult_writesReg x s.DT⟩,
    ⟨decode_encode (.ldDTVx x), _, rfl, rfl, rfl, fun _ => rfl, fun _ => rfl, rfl⟩,
    decode_encode (.ldSTVx x), _, rfl, rfl, rfl, fun _ => rfl, fun _ => rfl, rfl⟩

/-! ### The end of a tick (`45_timers.md` R163 to R166) -/

section
variable {st : Byte}

theorem timerOutputs_of_zero (h : st.toNat = 0) (mute : Bool) : timerOutputs st mute = [] :=
  if_pos (BitVec.eq_of_toNat_eq h)

/-- A sound timer above 0 gives the beep, and TimerElapsed where the decrement leaves 0. -/
theorem timerOutputs_of_pos (h : 0 < st.toNat) (mute : Bool) : timerOutputs st mute =
    [.beepTrigger, .audible (!mute)] ++ if st.toNat = 1 then [.timerElapsed] else [] := by
  have hne : st ≠ 0 := fun h0 => by simp [h0] at h
  have hlast : countDown st = 0 ↔ st.toNat = 1 := by
    rw [← BitVec.toNat_inj, countDown_toNat]
    exact Nat.sub_eq_iff_eq_add h
  simp only [timerOutputs, if_neg hne, hlast]

end

/-- Settles O42: the outputs of the timer phase by the value of ST, and the frame after them. -/
theorem tickEndsWithTimersAndRender : Obligations.TickEndsWithTimersAndRender := by
  intro s hp
  have hstep := step_of_finish hp
  rw [State.finishTick_eq] at hstep
  refine ⟨_, hstep, countDown_toNat s.DT, countDown_toNat s.ST, fun hzero => ?_, fun hone => ?_, fun hmore => ?_, rfl⟩
  · simp [timerOutputs_of_zero hzero]
  · simp [timerOutputs_of_pos (show 0 < s.ST.toNat by omega), hone]
  · simp [timerOutputs_of_pos (show 0 < s.ST.toNat by omega), show s.ST.toNat ≠ 1 by omega]

/-! ### The other mute setting (`45_timers.md` R165) -/

/-- The output of a block with the other mute setting: what reports the setting is inverted. -/
def Output.otherMute : Output → Output
  | .audible b => .audible (!b)
  | .muteState b => .muteState (!b)
  | .beepTrigger => .beepTrigger
  | .timerElapsed => .timerElapsed
  | .frame fb => .frame fb

/-- The state with the other mute setting, its latest outputs included. -/
def State.otherMute (s : State) : State := { s with mute := !s.mute, out := s.out.map Output.otherMute }

section
variable (s : State)

/-- A key test, mapped or not, reads the parameters and the keys, which both settings share. -/
theorem State.keyTest_otherMute (p : Prop) [Decidable p] (c : Bool) :
    (if p then s.otherMute.unmappedKey else s.otherMute.skipIf c) =
      State.otherMute (if p then s.unmappedKey else s.skipIf c) := by
  have hconfig : s.otherMute.config = s.config := rfl
  unfold State.unmappedKey
  rw [hconfig]
  split
  · split <;> rfl
  · rfl

/-- An instruction does the same with the other mute setting: neither its choices nor its writes read it. -/
theorem exec_otherMute (i : Instr) : ∃ t, exec i s = .next t ∧ exec i s.otherMute = .next t.otherMute := by
  cases i with
  | ret =>
    rcases List.eq_nil_or_concat' s.stack with hempty | ⟨rest, r, hs⟩
    · exact ⟨_, exec_ret_of_empty hempty, exec_ret_of_empty (s := s.otherMute) hempty⟩
    · exact ⟨_, exec_ret_of_append hs, exec_ret_of_append (s := s.otherMute) hs⟩
  | call nnn =>
    rcases Nat.lt_or_ge s.stack.length 16 with hroom | hfull
    · exact ⟨_, exec_call_of_room hroom nnn, exec_call_of_room (s := s.otherMute) hroom nnn⟩
    · exact ⟨_, exec_call_of_full hfull nnn, exec_call_of_full (s := s.otherMute) hfull nnn⟩
  | drw x y n =>
    by_cases hfit : n.toNat = 0 ∨ s.I.toNat + n.toNat ≤ 0x1000
    · exact ⟨_, exec_drw_of_le hfit, exec_drw_of_le (s := s.otherMute) hfit⟩
    · have hn : 0 < n.toNat := by omega
      have hover : 0x1000 < s.I.toNat + n.toNat := by omega
      exact ⟨_, exec_drw_of_lt hn hover, exec_drw_of_lt (s := s.otherMute) hn hover⟩
  | addI x =>
    rcases Nat.lt_or_ge 0xFFFF (s.I.toNat + (s.reg x).toNat) with hover | hfit
    · exact ⟨_, exec_addI_of_lt hover, exec_addI_of_lt (s := s.otherMute) hover⟩
    · exact ⟨_, exec_addI_of_le hfit, exec_addI_of_le (s := s.otherMute) hfit⟩
  | ldB x =>
    rcases Nat.lt_or_ge 0xFFF (s.I.toNat + 2) with hover | hfit
    · exact ⟨_, exec_ldB_of_lt hover, exec_ldB_of_lt (s := s.otherMute) hover⟩
    · obtain ⟨u, hu, he⟩ := exec_ldB_of_le (x := x) hfit
      obtain ⟨v, hv, he'⟩ := exec_ldB_of_le (s := s.otherMute) (x := x) hfit
      obtain ⟨-, rfl⟩ := State.memWrite_eq_some hu
      obtain ⟨-, rfl⟩ := State.memWrite_eq_some hv
      exact ⟨_, he, he'⟩
  | storeRegs x =>
    rcases Nat.lt_or_ge 0xFFF (s.I.toNat + x.toNat) with hover | hfit
    · exact ⟨_, exec_storeRegs_of_lt hover, exec_storeRegs_of_lt (s := s.otherMute) hover⟩
    · obtain ⟨u, hu, he⟩ := exec_storeRegs_of_le hfit
      obtain ⟨v, hv, he'⟩ := exec_storeRegs_of_le (s := s.otherMute) hfit
      obtain ⟨-, rfl⟩ := State.memWrite_eq_some hu
      obtain ⟨-, rfl⟩ := State.memWrite_eq_some hv
      exact ⟨_, he, he'⟩
  | loadRegs x =>
    rcases Nat.lt_or_ge 0xFFF (s.I.toNat + x.toNat) with hover | hfit
    · exact ⟨_, exec_loadRegs_of_lt hover, exec_loadRegs_of_lt (s := s.otherMute) hover⟩
    · exact ⟨_, exec_loadRegs_of_le hfit, exec_loadRegs_of_le (s := s.otherMute) hfit⟩
  | skp x => exact ⟨_, execSkp_eq x s, (execSkp_eq x s.otherMute).trans (congrArg _ (s.keyTest_otherMute _ _))⟩
  | sknp x => exact ⟨_, execSknp_eq x s, (execSknp_eq x s.otherMute).trans (congrArg _ (s.keyTest_otherMute _ _))⟩
  | _ => exact ⟨_, rfl, rfl⟩

theorem cycle_otherMute : ∃ t, cycle s = .next t ∧ cycle s.otherMute = .next t.otherMute := by
  cases hd : decode s.fetchWord with
  | ok i => rw [cycle_of_decode_ok hd, cycle_of_decode_ok (s := s.otherMute) hd]; exact exec_otherMute s i
  | error e => exact ⟨_, cycle_of_decode_error hd, cycle_of_decode_error (s := s.otherMute) hd⟩

theorem batchStep_otherMute (left : Nat) :
    ∃ t, batchStep left s = .next t ∧ batchStep left s.otherMute = .next t.otherMute := by
  by_cases hover : left = 0 ∨ s.wait ≠ .idle ∨ s.fault ≠ none
  · exact ⟨_, if_pos hover, if_pos hover⟩
  · obtain ⟨t, hc, hc'⟩ := cycle_otherMute s
    simp only [not_or, not_not] at hover
    obtain ⟨hleft, hw, hf⟩ := hover
    obtain ⟨n, rfl⟩ := Nat.exists_eq_succ_of_ne_zero hleft
    exact ⟨_, batchStep_of_cycle hw hf hc, batchStep_of_cycle (s := s.otherMute) hw hf hc'⟩

theorem State.resolveWait_otherMute (k : Nibble) : s.otherMute.resolveWait k = (s.resolveWait k).otherMute := by
  cases hw : s.wait with
  | idle => rw [State.resolveWait_idle hw, State.resolveWait_idle (s := s.otherMute) hw]
  | waiting r => rw [State.resolveWait_waiting hw, State.resolveWait_waiting (s := s.otherMute) hw]; rfl

/-- The poll looks at the keys and the draw counter. -/
theorem State.poll_otherMute : s.otherMute.poll = s.poll.otherMute := by
  have hpressed : s.otherMute.pressedKeys = s.pressedKeys := rfl
  have hdraws : s.otherMute.draws = s.draws := rfl
  unfold State.poll
  rw [hpressed, hdraws]
  split
  · rfl
  · exact State.resolveWait_otherMute (s.setDraws (s.draws + 1)) _

theorem State.beginTick_otherMute : s.otherMute.beginTick = s.beginTick.otherMute := by
  by_cases hf : s.fault = none
  · cases hw : s.wait with
    | idle => rw [State.beginTick_of_idle hf hw, State.beginTick_of_idle (s := s.otherMute) hf hw]; rfl
    | waiting r =>
      rw [State.beginTick_of_waiting hf hw, State.beginTick_of_waiting (s := s.otherMute) hf hw, s.poll_otherMute]
      rfl
  · rw [State.beginTick_of_fault hf, State.beginTick_of_fault (s := s.otherMute) hf]; rfl

theorem State.strobe_otherMute : s.otherMute.strobe = s.strobe.otherMute := by
  unfold State.strobe
  rw [apply_ite State.otherMute, ← s.beginTick_otherMute]
  rfl

theorem State.start_otherMute : s.otherMute.start = s.start.otherMute := by
  unfold State.start
  rw [apply_ite State.otherMute, ← State.beginTick_otherMute]
  rfl

theorem State.loadBuffer_otherMute (bytes : List Byte) :
    s.otherMute.loadBuffer bytes = (s.loadBuffer bytes).otherMute := by
  unfold State.loadBuffer
  rw [apply_ite State.otherMute]
  rfl

theorem State.keyUp_otherMute (k : Nibble) : s.otherMute.keyUp k = (s.keyUp k).otherMute := by
  unfold State.keyUp
  rw [apply_ite State.otherMute, ← State.resolveWait_otherMute]
  rfl

/-- A host event does the same with the other mute setting, and toggleMute returns the other value. -/
theorem State.takeEvent_otherMute (e : HostEvent) : s.otherMute.takeEvent e = (s.takeEvent e).otherMute := by
  cases e with
  | tick => exact s.strobe_otherMute
  | start => exact s.start_otherMute
  | loadBuffer bytes => exact s.loadBuffer_otherMute bytes
  | keyUp k => exact s.keyUp_otherMute k
  | toggleMute =>
    simp [State.takeEvent, State.toggleMute, State.otherMute, State.setMute, State.setOut, Output.otherMute]
  | stop | reset | keyDown => rfl

theorem timerOutputs_not_mute (st : Byte) (mute : Bool) :
    timerOutputs st (!mute) = (timerOutputs st mute).map Output.otherMute := by
  unfold timerOutputs
  split_ifs <;> rfl

theorem State.finishTick_otherMute : s.otherMute.finishTick = s.finishTick.otherMute := by
  rw [State.finishTick_eq, State.finishTick_eq]
  simp [State.otherMute, timerOutputs_not_mute, Output.otherMute]

/-- A step does the same with the other mute setting: only `mute` and the outputs that report it differ. -/
theorem step_otherMute : ∃ t, step s = .next t ∧ step s.otherMute = .next t.otherMute := by
  cases hp : s.phase with
  | batch left =>
    rw [step_of_batch hp, step_of_batch (s := s.otherMute) hp]
    exact batchStep_otherMute (s.setOut []) left
  | finish =>
    refine ⟨_, step_of_finish hp, (step_of_finish (s := s.otherMute) hp).trans ?_⟩
    exact congrArg _ (State.finishTick_otherMute (s.setOut []))
  | between =>
    cases hi : s.inputs with
    | nil =>
      refine ⟨_, step_of_no_event hp hi, (step_of_no_event (s := s.otherMute) hp hi).trans ?_⟩
      exact congrArg _ (State.strobe_otherMute (s.setOut []))
    | cons e es =>
      refine ⟨_, step_of_event hp hi, (step_of_event (s := s.otherMute) hp hi).trans ?_⟩
      exact congrArg _ (State.takeEvent_otherMute ((s.setOut []).setInputs es) e)

end

/-- Settles O49: `step_otherMute`; the outputs of the step before are gone, so inverting them makes no difference. -/
theorem muteGatesOnlyTheAudibleBit : Obligations.MuteGatesOnlyTheAudibleBit := by
  intro s t h
  obtain ⟨u, hu, hu'⟩ := step_otherMute s
  obtain rfl := Host.Outcome.next.inj (h.symm.trans hu)
  exact hu'

end Sys2Proof.Machine
end

section
/-! PROOF. The keys (`46_keys.md`; O35 to O39, O41): the key tests by the value of VX, what resolving a wait changes, and
the key events and the poll of a tick by it. -/

namespace Sys2Proof.Machine

/-! ### The key tests and FX0A (R174 to R177) -/

section
variable {s : State} {x k : Nibble}

/-- The low nibble of a byte with a key's number is that key (R170). -/
theorem setWidth_of_toNat_eq {v : Byte} (h : v.toNat = k.toNat) : v.setWidth 4 = k :=
  BitVec.eq_of_toNat_eq (by simpa [h] using k.isLt)

theorem not_le_of_toNat_eq {v : Byte} (h : v.toNat = k.toNat) : ¬0x10 ≤ v.toNat := h ▸ Nat.not_le.2 k.isLt

theorem exec_skp_of_mapped (h : (s.reg x).toNat = k.toNat) : exec (.skp x) s = .next (s.skipIf (s.key k)) := by
  show execSkp x s = _
  rw [execSkp_eq, if_neg (not_le_of_toNat_eq h), setWidth_of_toNat_eq h]

theorem exec_sknp_of_mapped (h : (s.reg x).toNat = k.toNat) : exec (.sknp x) s = .next (s.skipIf (!s.key k)) := by
  show execSknp x s = _
  rw [execSknp_eq, if_neg (not_le_of_toNat_eq h), setWidth_of_toNat_eq h]

theorem exec_skp_of_unmapped (h : 0x10 ≤ (s.reg x).toNat) : exec (.skp x) s = .next s.unmappedKey :=
  (execSkp_eq x s).trans (congrArg _ (if_pos h))

theorem exec_sknp_of_unmapped (h : 0x10 ≤ (s.reg x).toNat) : exec (.sknp x) s = .next s.unmappedKey :=
  (execSknp_eq x s).trans (congrArg _ (if_pos h))

theorem State.unmappedKey_of_stall (h : s.config.unmappedKeyPolicy = .stall) : s.unmappedKey = s := by
  rw [State.unmappedKey, h]

theorem State.unmappedKey_of_advance (h : s.config.unmappedKeyPolicy = .advance) : s.unmappedKey = s.advance := by
  rw [State.unmappedKey, h]

/-- A skip by the negated condition sets pc alone. -/
theorem State.skipIf_not_setsPc (s : State) (c : Bool) :
    SetsPc s (s.skipIf (!c)) (if c then s.pc + 2 else s.pc + 4) :=
  s.skipIf_not_pc c ▸ s.setPc_setsPc _

end

/-- Settles O35: on a key number each test is a skip by the key's state, above 0xF it is what the policy says. -/
theorem keyTestsSkipOrStall : Obligations.KeyTestsSkipOrStall := by
  intro s x
  refine ⟨decode_encode (.skp x), decode_encode (.sknp x), fun k hk => ?_, fun hx hp => ?_, fun hx hp => ?_⟩
  · exact ⟨⟨_, exec_skp_of_mapped hk, s.skipIf_setsPc Iff.rfl⟩, _, exec_sknp_of_mapped hk, s.skipIf_not_setsPc _⟩
  · rw [exec_skp_of_unmapped hx, exec_sknp_of_unmapped hx, State.unmappedKey_of_stall hp]
    exact ⟨rfl, rfl⟩
  · rw [exec_skp_of_unmapped hx, exec_sknp_of_unmapped hx, State.unmappedKey_of_advance hp]
    exact ⟨⟨_, rfl, s.setPc_setsPc _⟩, _, rfl, s.setPc_setsPc _⟩

/-- Settles O36: FX0A writes the wait and the marker alone. -/
theorem keyWaitSuspends : Obligations.KeyWaitSuspends := fun _ x => ⟨decode_encode (.ldVxK x), rfl⟩

/-! ### The key events (R171, R172) -/

section
variable {s : State} {r k : Nibble}

/-- Resolving a wait gives its register the key's number, advances pc and ends the wait, and nothing else (R178). -/
theorem State.resolveWait_resolves (hw : s.wait = .waiting r) (k : Nibble) :
    ((s.resolveWait k).reg r).toNat = k.toNat ∧ (∀ j, j ≠ r → (s.resolveWait k).reg j = s.reg j) ∧
      s.resolveWait k = { s with V := (s.resolveWait k).V, pc := s.pc + 2, wait := .idle, marker := none } := by
  have hfit : k.toNat < 2 ^ 8 := Nat.lt_trans k.isLt (by decide)
  rw [State.resolveWait_waiting hw]
  refine ⟨?_, fun _ hj => State.reg_setReg_ne s hj _, rfl⟩
  exact (congrArg BitVec.toNat (State.reg_setReg_self s r _)).trans (toNat_ofNat_of_lt hfit)

theorem State.resolveWait_keys (s : State) (k : Nibble) : (s.resolveWait k).keys = s.keys := by
  unfold State.resolveWait
  split <;> rfl

/-- Two states with the same keys read the same. -/
theorem State.key_congr {t : State} (h : t.keys = s.keys) (j : Nibble) : t.key j = s.key j := by
  unfold State.key; simp [h]

/-- Writing the state a key already has changes nothing. -/
theorem State.setKey_of_key {b : Bool} (h : s.key k = b) : s.setKey k b = s := by
  subst h
  simp [State.setKey, State.key, State.setKeys]

/-- An idle block's release of a key that is not pressed changes nothing. -/
theorem State.keyUp_of_released (hw : s.wait = .idle) (hk : s.key k = false) : s.keyUp k = s :=
  (State.keyUp_of_no_match (.inl hw)).trans (State.setKey_of_key hk)

/-- A release that finds its own mark in a waiting block releases the key and resolves the wait, and nothing else
(R172, R178, R180). -/
theorem State.keyUp_resolves (hw : s.wait = .waiting r) (hm : s.marker = some k) :
    (s.keyUp k).key k = false ∧ (∀ j, j ≠ k → (s.keyUp k).key j = s.key j) ∧
      ((s.keyUp k).reg r).toNat = k.toNat ∧ (∀ j, j ≠ r → (s.keyUp k).reg j = s.reg j) ∧
      s.keyUp k = { s with
        keys := (s.keyUp k).keys, V := (s.keyUp k).V, pc := s.pc + 2, wait := .idle, marker := none } := by
  have hkeys := (s.setKey k false).resolveWait_keys k
  obtain ⟨hreg, hothers, hframe⟩ := State.resolveWait_resolves (s := s.setKey k false) hw k
  rw [State.keyUp_of_marker hm]
  refine ⟨?_, fun j hj => ?_, hreg, hothers, ?_⟩
  · exact (State.key_congr hkeys k).trans (s.key_setKey_self k false)
  · exact (State.key_congr hkeys j).trans (s.key_setKey_ne hj false)
  · rw [hkeys]; exact hframe

end

/-- Settles O37: the event is taken from the queue, and it writes one key and the marker. -/
theorem keyDownPressesAndMarks : Obligations.KeyDownPressesAndMarks := fun s k _ hp hi =>
  ⟨_, step_of_event hp hi, s.key_setKey_self k true, fun _ hj => s.key_setKey_ne hj true, rfl⟩

/-- Settles O38: the event is taken from the queue; a release resolves the wait (`State.keyUp_resolves`) or only
releases the key. -/
theorem keyUpReleasesAndResolves : Obligations.KeyUpReleasesAndResolves := by
  intro s k es hp hi
  have hstep : step s = .next (((s.setOut []).setInputs es).keyUp k) := step_of_event hp hi
  refine ⟨fun r hw hm => ?_, fun hno => ?_⟩
  · exact ⟨_, hstep, State.keyUp_resolves (s := (s.setOut []).setInputs es) hw hm⟩
  · rw [hstep, State.keyUp_of_no_match (s := (s.setOut []).setInputs es) hno]
    exact ⟨_, rfl, s.key_setKey_self k false, fun _ hj => s.key_setKey_ne hj false, rfl⟩

/-- Settles O39: the press leaves the wait and marks the key (O37), the release resolves the wait (O38), and a second
release finds the block idle and the key released already. -/
theorem pressAndReleaseResolveTheWaitOnce : Obligations.PressAndReleaseResolveTheWaitOnce := by
  intro s r k es hp hw hi
  obtain ⟨t, ht, -, -, hst⟩ := keyDownPressesAndMarks s k _ hp hi
  have htp : t.phase = .between := (congrArg State.phase hst).trans hp
  have htpc : t.pc = s.pc := (congrArg State.pc hst :)
  have htw : t.wait = .waiting r := (congrArg State.wait hst).trans hw
  obtain ⟨hresolve, -⟩ := keyUpReleasesAndResolves t k _ htp (congrArg State.inputs hst)
  obtain ⟨u, hu, hkey, -, hreg, -, htu⟩ := hresolve r htw (congrArg State.marker hst)
  have huw : u.wait = .idle := congrArg State.wait htu
  have hv : step u = .next (((u.setOut []).setInputs es).keyUp k) :=
    step_of_event ((congrArg State.phase htu).trans htp) (congrArg State.inputs htu)
  rw [State.keyUp_of_released (s := (u.setOut []).setInputs es) huw hkey] at hv
  have hupc : u.pc = s.pc + 2 := (congrArg State.pc htu).trans (congrArg (· + 2) htpc)
  exact ⟨t, u, _, ht, htw, htpc, hu, huw, hreg, hupc, congrArg State.marker htu, hv, rfl⟩

/-! ### The poll (R181) -/

/-- A poll with a key pressed resolves the wait with some pressed key, whatever the free value. -/
theorem State.poll_of_pressed {s : State} (h : ∃ k, s.key k = true) :
    ∃ k, s.key k = true ∧ s.poll = (s.setDraws (s.draws + 1)).resolveWait k := by
  obtain ⟨j, hj⟩ := h
  have hne : s.pressedKeys ≠ [] := List.ne_nil_of_mem (State.mem_pressedKeys.2 hj)
  obtain ⟨k, hk, hsel⟩ := pollSelect_mem hne (Config.pollChoice s.draws)
  exact ⟨k, State.mem_pressedKeys.1 hk, by rw [State.poll, hsel]⟩

/-- Settles O41: the tick starts with the poll, which resolves the wait and counts one choice. -/
theorem pollResolvesWithAPressedKey : Obligations.PollResolvesWithAPressedKey := by
  intro s es r hdue hr hf hw hpressed
  obtain ⟨k, hk, hpoll⟩ := State.poll_of_pressed (s := (s.setOut []).setInputs es) hpressed
  obtain ⟨hreg, hothers, hframe⟩ :=
    State.resolveWait_resolves (s := ((s.setOut []).setInputs es).setDraws (s.draws + 1)) hw k
  refine ⟨k, _, hk, step_of_tickDue hdue hr, ?_⟩
  rw [State.beginTick_of_waiting (s := (s.setOut []).setInputs es) hf hw, hpoll]
  exact ⟨hreg, hothers, congrArg (State.setPhase · .finish) hframe⟩

end Sys2Proof.Machine
end

section
/-! PROOF. The scheduler and the host's operations (`47_scheduler_host.md`; O40, O43 to O45, O57, O58). The steps of a
tick reach what `tick` gives because a cycle neither looks at the place in the tick nor gives an output. -/

namespace Sys2Proof.Machine

/-! ### The operations do not look at the place in the tick (log entry 19) -/

/-- The answer with its next state changed by `f`. -/
def mapNext (f : State → State) : Result → Result
  | .next t => .next (f t)
  | .fault r => .fault r
  | .refused r => .refused r

section
variable (s : State) (p : Phase)

theorem State.memWrite_setPhase (a : Nat) (bs : List Byte) :
    (s.setPhase p).memWrite a bs = (s.memWrite a bs).map (State.setPhase · p) := by
  unfold State.memWrite
  rw [apply_ite (Option.map (State.setPhase · p))]
  rfl

theorem State.push_setPhase (v : Word) : (s.setPhase p).push v = (s.push v).map (State.setPhase · p) := by
  unfold State.push
  rw [apply_ite (Option.map (State.setPhase · p))]
  rfl

theorem State.pop_setPhase : (s.setPhase p).pop = s.pop.map (Prod.map id (State.setPhase · p)) := by
  unfold State.pop
  rw [State.setPhase_stack]
  cases s.stack.getLast? <;> rfl

theorem State.unmappedKey_setPhase : (s.setPhase p).unmappedKey = s.unmappedKey.setPhase p := by
  unfold State.unmappedKey
  rw [State.setPhase_config]
  cases s.config.unmappedKeyPolicy <;> rfl

/-- An instruction does the same wherever it stands in the tick: every check it makes reads fields that
`State.setPhase` leaves. -/
theorem exec_setPhase (i : Instr) : exec i (s.setPhase p) = mapNext (State.setPhase · p) (exec i s) := by
  have hreg (r : Nibble) : (s.setPhase p).reg r = s.reg r := rfl
  have hread (a n : Nat) : (s.setPhase p).memRead a n = s.memRead a n := rfl
  have hregs (r : Nibble) : (s.setPhase p).regsUpTo r = s.regsUpTo r := rfl
  cases i with
  | ret =>
    simp only [exec, execRet, State.pop_setPhase]
    cases s.pop <;> rfl
  | call nnn =>
    simp only [exec, execCall, State.push_setPhase, State.setPhase_pc]
    cases s.push s.pc <;> rfl
  | drw x y n =>
    simp only [exec, execDrw, hread, State.setPhase_I]
    cases s.memRead s.I.toNat n.toNat <;> rfl
  | addI x =>
    simp only [exec, execAddI, hreg, State.setPhase_I, apply_ite (mapNext (State.setPhase · p))]
    rfl
  | ldB x =>
    simp only [exec, execLdB, State.memWrite_setPhase, hreg, State.setPhase_I]
    cases s.memWrite s.I.toNat (decimalDigits (s.reg x)) <;> rfl
  | storeRegs x =>
    simp only [exec, execStoreRegs, State.memWrite_setPhase, hregs, State.setPhase_I]
    cases s.memWrite s.I.toNat (s.regsUpTo x) <;> rfl
  | loadRegs x =>
    simp only [exec, execLoadRegs, hread, State.setPhase_I]
    cases s.memRead s.I.toNat (x.toNat + 1) <;> rfl
  | skp x =>
    simp only [exec, execSkp, State.unmappedKey_setPhase, hreg]
    cases keyOf (s.reg x) <;> rfl
  | sknp x =>
    simp only [exec, execSknp, State.unmappedKey_setPhase, hreg]
    cases keyOf (s.reg x) <;> rfl
  | _ => rfl

theorem cycle_setPhase : cycle (s.setPhase p) = mapNext (State.setPhase · p) (cycle s) := by
  have hfetch : (s.setPhase p).fetchWord = s.fetchWord := rfl
  unfold cycle
  rw [hfetch]
  cases decode s.fetchWord with
  | error e => rfl
  | ok i => exact exec_setPhase s p i

end

/-! ### What a tick is made of (R191 to R193) -/

section
variable {s t : State} {n : Nat}

/-- A cycle always answers a next state, an instruction and an illegal word alike, whichever mute setting it is taken
with (`60_exceptions.md` R213). -/
theorem exists_cycle_eq_next (s : State) : ∃ t, cycle s = .next t :=
  (cycle_otherMute s).imp fun _ h => h.1

/-- No cycle gives the host anything. -/
theorem cycle_out (h : cycle s = .next t) : t.out = s.out := by
  obtain ⟨i, -, he⟩ | ⟨e, -, he⟩ := cycle_cases s <;> rw [he] at h
  · obtain ⟨-, -, -, -, -, -, -, -, -, -, -, -, -, hout⟩ := otherStateChangesOnlyByItsInstructions i s t h
    exact hout
  · exact Host.Outcome.next.inj h ▸ rfl

theorem State.resolveWait_out (s : State) (k : Nibble) : (s.resolveWait k).out = s.out := by
  unfold State.resolveWait
  split <;> rfl

theorem State.poll_out (s : State) : s.poll.out = s.out := by
  obtain hp | ⟨k, hp⟩ := s.poll_cases <;> rw [hp]
  exact State.resolveWait_out _ k

/-- With no key pressed a poll finds nothing to select (`46_keys.md` R181). -/
theorem State.poll_of_no_key (h : ∀ k, s.key k = false) : s.poll = s := by
  have hnone : s.pressedKeys = [] :=
    List.eq_nil_iff_forall_not_mem.2 fun k hk => Bool.false_ne_true ((h k).symm.trans (State.mem_pressedKeys.1 hk))
  rw [State.poll, hnone]
  rfl

theorem runBatch_succ_of_over (hc : cycle s = .next t) (h : t.wait ≠ .idle ∨ t.fault ≠ none) :
    runBatch (n + 1) s = .next t := by
  rw [runBatch, hc]
  exact if_pos h

theorem runBatch_succ_of_open (hc : cycle s = .next t) (hw : t.wait = .idle) (hf : t.fault = none) :
    runBatch (n + 1) s = runBatch n t := by
  rw [runBatch, hc]
  exact if_neg (by simp [hw, hf])

theorem instructionPart_of_fault (h : s.fault ≠ none) : instructionPart s = .next s := by
  obtain ⟨f, hf⟩ := Option.ne_none_iff_exists'.1 h
  simp [instructionPart, hf]

theorem instructionPart_of_waiting {r : Nibble} (hf : s.fault = none) (hw : s.wait = .waiting r) :
    instructionPart s = .next s.poll := by
  simp [instructionPart, hf, hw]

theorem instructionPart_of_idle (hf : s.fault = none) (hw : s.wait = .idle) : instructionPart s = runBatch 8 s := by
  simp [instructionPart, hf, hw]

theorem tick_of_instructionPart (h : instructionPart (s.setOut []) = .next t) : tick s = .next t.finishTick := by
  rw [tick, h]

end

/-! ### Runs of steps -/

section
variable {s t : State}

/-- A step always answers a next state, whichever mute setting it is taken with (R201). -/
theorem exists_step_eq_next (s : State) : ∃ t, step s = .next t :=
  (step_otherMute s).imp fun _ h => h.1

theorem run_succ_of_step (h : step s = .next t) (k : Nat) : Host.Core.run core (k + 1) s = Host.Core.run core k t := by
  have hcore : core.step s = .next t := h
  simp only [Host.Core.run, hcore]

/-- A run that has reached `t` goes on as a run from `t`. -/
theorem run_add {k : Nat} (h : Host.Core.run core k s = .next t) (j : Nat) :
    Host.Core.run core (k + j) s = Host.Core.run core j t := by
  induction k generalizing s with
  | zero =>
    obtain rfl := Host.Outcome.next.inj h
    rw [Nat.zero_add]
  | succ k ih =>
    obtain ⟨u, hu⟩ := exists_step_eq_next s
    rw [run_succ_of_step hu] at h
    rw [Nat.succ_add, run_succ_of_step hu, ih h]

end

/-! ### The steps of a tick (log entry 8) -/

/-- The place in the tick with `n` cycles of the batch still to run. -/
def batchPhase : Nat → Phase
  | 0 => .finish
  | n + 1 => .batch (n + 1)

section
variable {s t : State} {n : Nat}

theorem State.setOut_setPhase_of_out (h : s.out = []) (p : Phase) : (s.setPhase p).setOut [] = s.setPhase p := by
  rw [← h]
  rfl

theorem State.afterCycle_of_over (h : s.wait ≠ .idle ∨ s.fault ≠ none) : s.afterCycle n = s.setPhase .finish :=
  congrArg s.setPhase (if_pos (.inr h))

theorem State.afterCycle_of_open (hw : s.wait = .idle) (hf : s.fault = none) :
    s.afterCycle (n + 1) = s.setPhase (batchPhase n) := by
  rw [State.afterCycle_succ]
  cases n <;> simp [hw, hf, batchPhase, State.setPhase]

/-- A step of a batch is the cycle of R191, which does not look at the place in the tick. -/
theorem step_of_batch_of_cycle (hout : s.out = []) (hw : s.wait = .idle) (hf : s.fault = none)
    (hc : cycle s = .next t) : step (s.setPhase (.batch (n + 1))) = .next (t.afterCycle (n + 1)) := by
  have hcycle : cycle (s.setPhase (.batch (n + 1))) = .next (t.setPhase (.batch (n + 1))) := by
    rw [cycle_setPhase, hc]
    rfl
  rw [step_of_batch (State.setPhase_phase ..), State.setOut_setPhase_of_out hout]
  exact (batchStep_of_cycle (s := s.setPhase (.batch (n + 1))) hw hf hcycle :)

/-- The steps of a batch are the repetition of `Cycle()` (R191, R193). -/
theorem run_batch (n : Nat) (hout : s.out = []) (hw : s.wait = .idle) (hf : s.fault = none) :
    ∃ k t, k ≤ n ∧ runBatch n s = .next t ∧ t.out = [] ∧
      Host.Core.run core k (s.setPhase (batchPhase n)) = .next (t.setPhase .finish) := by
  induction n generalizing s with
  | zero => exact ⟨0, s, Nat.le_refl 0, rfl, hout, rfl⟩
  | succ n ih =>
    obtain ⟨u, hc⟩ := exists_cycle_eq_next s
    have huout : u.out = [] := (cycle_out hc).trans hout
    have hstep := run_succ_of_step (step_of_batch_of_cycle (n := n) hout hw hf hc)
    by_cases hover : u.wait ≠ .idle ∨ u.fault ≠ none
    · rw [State.afterCycle_of_over hover] at hstep
      exact ⟨1, u, by omega, runBatch_succ_of_over hc hover, huout, hstep 0⟩
    · simp only [not_or, not_not] at hover
      obtain ⟨huw, huf⟩ := hover
      rw [State.afterCycle_of_open huw huf] at hstep
      obtain ⟨k, t, hk, hbatch, htout, hrun⟩ := ih huout huw huf
      exact ⟨k + 1, t, by omega, (runBatch_succ_of_open hc huw huf).trans hbatch, htout, (hstep k).trans hrun⟩

/-- The steps from the start of a tick are its instruction part: none with a fault or a wait, else those of the batch. -/
theorem run_beginTick (hout : s.out = []) : ∃ k t, k ≤ 8 ∧ instructionPart s = .next t ∧ t.out = [] ∧
    Host.Core.run core k s.beginTick = .next (t.setPhase .finish) := by
  by_cases hf : s.fault = none
  · cases hw : s.wait with
    | idle =>
      rw [instructionPart_of_idle hf hw, State.beginTick_of_idle hf hw]
      exact run_batch 8 hout hw hf
    | waiting r =>
      rw [instructionPart_of_waiting hf hw, State.beginTick_of_waiting hf hw]
      exact ⟨0, s.poll, by omega, rfl, s.poll_out.trans hout, rfl⟩
  · rw [instructionPart_of_fault hf, State.beginTick_of_fault hf]
    exact ⟨0, s, by omega, rfl, hout, rfl⟩

end

/-- Settles O43: one step starts the tick, at most eight are its instruction part (`run_beginTick`), and one ends it. -/
theorem stepsOfATickAreTheTickProcedure : Obligations.StepsOfATickAreTheTickProcedure := by
  intro s es hdue hr
  obtain ⟨k, t, hk, hpart, hout, hrun⟩ := run_beginTick (s := (s.setOut []).setInputs es) rfl
  have hfinish : step (t.setPhase .finish) = .next t.finishTick := by
    rw [step_of_finish (State.setPhase_phase ..), State.setOut_setPhase_of_out hout]
    rfl
  refine ⟨k + 1 + 1, t.finishTick, by omega, tick_of_instructionPart (s := { s with inputs := es }) hpart, ?_, rfl⟩
  rw [run_succ_of_step (step_of_tickDue hdue hr), run_add hrun, run_succ_of_step hfinish]
  rfl

/-- Settles O57: `exists_step_eq_next`, for host events, cycles and the ends of a tick alike. -/
theorem blockNeverStops : Obligations.BlockNeverStops := exists_step_eq_next

/-! ### The idle loop (R201) -/

section
variable {s : State}

/-- The word 1NNN is the class beside the address NNN (`30_encoding.md` R76). -/
theorem encode_jp (nnn : Addr12) : encode (.jp nnn) = 0x1000 ||| addrWord nnn := by
  apply BitVec.eq_of_toNat_eq
  rw [BitVec.toNat_or, addrWord_toNat]
  exact BitVec.toNat_append _ _

theorem exists_addrWord_eq {v : Word} (h : v.toNat ≤ 0xFFF) : ∃ nnn, addrWord nnn = v :=
  ⟨BitVec.ofNat 12 v.toNat,
    BitVec.eq_of_toNat_eq ((addrWord_toNat _).trans (toNat_ofNat_of_lt (Nat.lt_succ_of_le h)))⟩

/-- A jump to itself at pc is a cycle that changes nothing (`41_control_flow.md` R101). -/
theorem cycle_of_jump_to_pc (hpc : s.pc.toNat ≤ 0xFFF) (hword : s.fetchWord = 0x1000 ||| s.pc) : cycle s = .next s := by
  obtain ⟨nnn, hnnn⟩ := exists_addrWord_eq hpc
  rw [← hnnn, ← encode_jp] at hword
  rw [cycle_of_decode_ok (hword ▸ decode_encode (.jp nnn))]
  exact congrArg (fun a => Host.Outcome.next (s.setPc a)) hnnn

/-- Cycles that change nothing are a batch that changes nothing. -/
theorem runBatch_of_cycle_eq_self (hc : cycle s = .next s) (hw : s.wait = .idle) (hf : s.fault = none) (n : Nat) :
    runBatch n s = .next s := by
  induction n with
  | zero => rfl
  | succ n ih => exact (runBatch_succ_of_open hc hw hf).trans ih

end

/-- Settles O58: the batch is eight jumps to the same place, and the end of the tick writes the timers and outputs. -/
theorem idleLoopIsAFixedPointOfATick : Obligations.IdleLoopIsAFixedPointOfATick := by
  rintro s ⟨hp, hpc, hword, hw, hf⟩ - -
  have hpart : instructionPart (s.setOut []) = .next (s.setOut []) := by
    rw [instructionPart_of_idle (s := s.setOut []) hf hw]
    exact runBatch_of_cycle_eq_self (cycle_of_jump_to_pc (s := s.setOut []) hpc hword) hw hf 8
  have htick := tick_of_instructionPart hpart
  rw [State.finishTick_eq, ← hp] at htick
  exact ⟨_, htick, ⟨hp, hpc, hword, hw, hf⟩, rfl⟩

/-! ### The start of a tick and the host's operations (R190 to R200) -/

/-- Settles O40: a tick that is due starts, by the fault and by the wait. -/
theorem tickStartsByFaultAndWait : Obligations.TickStartsByFaultAndWait := by
  intro s es hdue hr
  rw [step_of_tickDue hdue hr]
  refine ⟨fun hf => ?_, fun hf hw => ?_, fun r hf hw hkeys => ?_⟩
  · rw [State.beginTick_of_fault (s := (s.setOut []).setInputs es) hf]; rfl
  · rw [State.beginTick_of_idle (s := (s.setOut []).setInputs es) hf hw]; rfl
  · rw [State.beginTick_of_waiting (s := (s.setOut []).setInputs es) hf hw,
      State.poll_of_no_key (s := (s.setOut []).setInputs es) hkeys]
    rfl

/-- Settles O44: each event is taken from the queue; start() of a stopped block is a tick that is due once it runs. -/
theorem startStopAndToggleMute : Obligations.StartStopAndToggleMute := by
  intro s es hp
  refine ⟨fun hi hr => ?_, fun hi hr => ?_, fun hi => step_of_event hp hi, fun hi => step_of_event hp hi⟩
  · exact (step_of_event hp hi).trans (congrArg _ (if_pos hr))
  · have hdue : State.tickDue { s with running := true, inputs := .tick :: es } es := ⟨hp, .inr rfl⟩
    have hstopped : ¬((s.setOut []).setInputs es).running = true := by simp [hr]
    rw [step_of_event hp hi, step_of_tickDue hdue rfl]
    exact congrArg _ (if_neg hstopped)

/-- Settles O45: a strobe, the scheduler's own or the host's, does nothing to a stopped block. -/
theorem stoppedBlockIsInert : Obligations.StoppedBlockIsInert := by
  intro s es hp hr
  have hstrobe (t : State) (ht : t.running = s.running) : t.strobe = t := if_neg (by simp [ht, hr])
  refine ⟨fun hi => ?_, fun hi => ?_⟩
  · exact (step_of_no_event hp hi).trans (congrArg _ (hstrobe _ rfl))
  · exact (step_of_event hp hi).trans (congrArg _ (hstrobe _ rfl))

end Sys2Proof.Machine
end

section
/-! PROOF. Faults and the reset (`60_exceptions.md`, `70_reset_and_hazards.md`; O48, O54 to O56). A fault comes from a
cycle alone: an instruction that completes, a host event other than a reset and the ends of a tick leave the record. -/

namespace Sys2Proof.Machine

/-! ### The fault each instruction raises (R210) -/

section
variable {s t : State} {i : Instr}

/-- An instruction that completes records no fault. -/
theorem Completes.fault (hc : Completes s t i) : t.fault = s.fault := by
  cases i with
  | skp | sknp => obtain rfl | ⟨_, rfl⟩ := hc <;> rfl
  | cls | jp | jpV0 | ldVxK => obtain rfl := hc; rfl
  | ret => obtain ⟨_, _, _, rfl⟩ := hc; rfl
  | call => obtain ⟨_, rfl⟩ := hc; rfl
  | ldB | storeRegs =>
    obtain ⟨_, _, u, hw, rfl⟩ := hc
    rw [State.memWrite_frame hw]
    rfl
  | addReg | subReg | shrReg | subnReg | shlReg | drw | loadRegs => obtain ⟨_, _, rfl⟩ := hc; rfl
  | seImm | sneImm | seReg | sneReg | ldImm | addImm | ldReg | orReg | andReg | xorReg | rnd | ldI | addI | ldF
  | ldVxDT | ldDTVx | ldSTVx => obtain ⟨_, rfl⟩ := hc; rfl

theorem exists_exec_eq_next (i : Instr) (s : State) : ∃ t, exec i s = .next t :=
  (exec_otherMute s i).imp fun _ h => h.1

/-- `i` leaves the record of the fault `raised`, with its number at the fault port, or none and zeros there. -/
def Reports (i : Instr) (s : State) (raised : Option (FaultCode × Nibble)) : Prop :=
  ∃ t, exec i s = .next t ∧ t.fault = raised.map (fun c => ⟨c.1, s.pc, encode i⟩) ∧
    t.faultPort = raised.elim (0, 0, 0) fun c => (c.2, s.pc, encode i)

theorem reports_of_raise {code : FaultCode} (h : exec i s = .next (s.raise code (encode i))) :
    Reports i s (some (code, code.number)) :=
  ⟨_, h, rfl, rfl⟩

theorem reports_none (hf : s.fault = none) (h : exec i s = .next t) (ht : t.fault = s.fault) : Reports i s none := by
  have hnone : t.fault = none := ht.trans hf
  refine ⟨t, h, hnone, ?_⟩
  rw [State.faultPort, hnone]
  rfl

/-- An instruction with one fault reports it exactly on its condition. -/
theorem reports_ite {p : Prop} [Decidable p] {code : FaultCode} (hf : s.fault = none)
    (hp : p → exec i s = .next (s.raise code (encode i))) (hn : ¬p → ∃ t, exec i s = .next t ∧ t.fault = s.fault) :
    Reports i s (if p then some (code, code.number) else none) := by
  split
  next h => exact reports_of_raise (hp h)
  next h =>
    obtain ⟨t, he, ht⟩ := hn h
    exact reports_none hf he ht

end

/-- Settles O54: each instruction with a fault raises it on its condition and completes without it; the others
complete. -/
theorem faultConditionsOfEveryInstruction : Obligations.FaultConditionsOfEveryInstruction := by
  intro i s raised hf hraised
  suffices h : Reports i s raised by
    obtain ⟨t, he, hfault, hport⟩ := h
    exact ⟨t, he, hfault, hport.trans (by cases raised <;> rfl)⟩
  subst hraised
  cases i with
  | ret =>
    refine reports_ite hf exec_ret_of_empty fun hne => ?_
    obtain ⟨rest, r, hs⟩ := (List.eq_nil_or_concat' s.stack).resolve_left hne
    exact ⟨_, exec_ret_of_append hs, rfl⟩
  | call nnn =>
    exact reports_ite hf (exec_call_of_full · nnn) fun hroom => ⟨_, exec_call_of_room (Nat.not_le.1 hroom) nnn, rfl⟩
  | drw x y n =>
    refine reports_ite hf (fun ⟨hn, hover⟩ => exec_drw_of_lt hn (by omega)) fun hfit => ?_
    exact ⟨_, exec_drw_of_le (by omega), rfl⟩
  | ldB x =>
    refine reports_ite hf exec_ldB_of_lt fun hfit => ?_
    obtain ⟨u, hw, he⟩ := exec_ldB_of_le (x := x) (Nat.not_lt.1 hfit)
    exact ⟨_, he, Completes.fault (i := .ldB x) ⟨_, _, u, hw, rfl⟩⟩
  | storeRegs x =>
    refine reports_ite hf exec_storeRegs_of_lt fun hfit => ?_
    obtain ⟨u, hw, he⟩ := exec_storeRegs_of_le (Nat.not_lt.1 hfit)
    exact ⟨_, he, Completes.fault (i := .storeRegs x) ⟨_, _, u, hw, rfl⟩⟩
  | loadRegs => exact reports_ite hf exec_loadRegs_of_lt fun hfit => ⟨_, exec_loadRegs_of_le (Nat.not_lt.1 hfit), rfl⟩
  | addI => exact reports_ite hf exec_addI_of_lt fun hfit => ⟨_, exec_addI_of_le (Nat.not_lt.1 hfit), rfl⟩
  | skp x => exact (exists_exec_eq_next (.skp x) s).elim fun _ h => reports_none hf h (execSkp_cases h).fault
  | sknp x => exact (exists_exec_eq_next (.sknp x) s).elim fun _ h => reports_none hf h (execSknp_cases h).fault
  | _ => exact reports_none hf rfl rfl

/-! ### The step that records a fault (R212) -/

section
variable {s t : State}

/-- A cycle raises a fault with the word it fetched, or leaves the record. -/
theorem cycle_raises_or_keeps_fault (h : cycle s = .next t) :
    (∃ code, t = s.raise code s.fetchWord) ∨ t.fault = s.fault := by
  obtain ⟨i, hd, he⟩ | ⟨e, -, he⟩ := cycle_cases s <;> rw [he] at h
  · rw [← encode_of_decode hd]
    exact (exec_cases h).imp_right Completes.fault
  · exact .inl ⟨_, (Host.Outcome.next.inj h).symm⟩

/-- A step of a batch that records a fault is a cycle that raises it, and the end of the batch. -/
theorem batchStep_raises {left : Nat} (h : batchStep left s = .next t) (hf : s.fault = none) (ht : t.fault ≠ none) :
    ∃ code, t = (s.raise code s.fetchWord).setPhase .finish := by
  unfold batchStep at h
  split at h
  · exact absurd (Host.Outcome.next.inj h ▸ hf) ht
  split at h
  next u hu =>
    obtain rfl := Host.Outcome.next.inj h
    have hu' : u.fault ≠ none := ht
    rcases cycle_raises_or_keeps_fault hu with ⟨code, rfl⟩ | hkeep
    · exact ⟨code, State.afterCycle_of_fault hu'⟩
    · exact absurd (hkeep.trans hf) hu'
  all_goals cases h

theorem State.resolveWait_fault (s : State) (k : Nibble) : (s.resolveWait k).fault = s.fault := by
  unfold State.resolveWait
  split <;> rfl

theorem State.poll_fault (s : State) : s.poll.fault = s.fault := by
  obtain hp | ⟨k, hp⟩ := s.poll_cases <;> rw [hp]
  exact State.resolveWait_fault _ k

theorem State.beginTick_fault (s : State) : s.beginTick.fault = s.fault := by
  unfold State.beginTick
  split
  · rfl
  · exact s.poll_fault
  · rfl

theorem State.strobe_fault (s : State) : s.strobe.fault = s.fault := by
  unfold State.strobe
  split
  · exact s.beginTick_fault
  · rfl

theorem State.start_fault (s : State) : s.start.fault = s.fault := by
  unfold State.start
  split
  · rfl
  · exact (s.setRunning true).beginTick_fault

theorem State.loadBuffer_fault (s : State) (bytes : List Byte) : (s.loadBuffer bytes).fault = s.fault := by
  unfold State.loadBuffer
  split <;> rfl

theorem State.keyUp_fault (s : State) (k : Nibble) : (s.keyUp k).fault = s.fault := by
  unfold State.keyUp
  split
  · exact State.resolveWait_fault (s.setKey k false) k
  · rfl

/-- No host event records a fault, and only a reset clears one (R213). -/
theorem State.takeEvent_fault {e : HostEvent} (he : e ≠ .reset) : (s.takeEvent e).fault = s.fault := by
  cases e with
  | tick => exact s.strobe_fault
  | start => exact s.start_fault
  | loadBuffer bytes => exact s.loadBuffer_fault bytes
  | keyUp k => exact s.keyUp_fault k
  | reset => exact absurd rfl he
  | stop | toggleMute | keyDown => rfl

end
/-- Settles O55: in a batch the step is a cycle that raises the fault (`batchStep_raises`); between ticks and at the end
of one no step records any. -/
theorem faultsArePrecise : Obligations.FaultsArePrecise := by
  intro s t hstep hf ht
  cases hp : s.phase with
  | batch left =>
    rw [step_of_batch hp] at hstep
    obtain ⟨code, rfl⟩ := batchStep_raises hstep hf ht
    exact ⟨code, rfl⟩
  | finish =>
    rw [step_of_finish hp, State.finishTick_eq] at hstep
    obtain rfl := Host.Outcome.next.inj hstep
    exact absurd hf ht
  | between =>
    cases hi : s.inputs with
    | nil =>
      obtain rfl := Host.Outcome.next.inj ((step_of_no_event hp hi).symm.trans hstep)
      exact absurd ((s.setOut []).strobe_fault.trans hf) ht
    | cons e es =>
      obtain rfl := Host.Outcome.next.inj ((step_of_event hp hi).symm.trans hstep)
      by_cases he : e = .reset
      · subst he
        exact absurd rfl ht
      · exact absurd ((State.takeEvent_fault (s := (s.setOut []).setInputs es) he).trans hf) ht

/-! ### A faulted block (R213) -/

/-- From `s` to `t` the fault record stays and no instruction has run; memory stays unless a buffer is loaded. -/
structure Frozen (s t : State) (loads : Prop) : Prop where
  fault : t.fault = s.fault
  V : t.V = s.V
  I : t.I = s.I
  pc : t.pc = s.pc
  stack : t.stack = s.stack
  FB : t.FB = s.FB
  mem : ¬loads → t.mem = s.mem

section
variable {s t : State}

/-- A faulted block's tick has no instruction part. -/
theorem State.strobe_frozen (hf : s.fault ≠ none) (loads : Prop) : Frozen s s.strobe loads := by
  unfold State.strobe
  split
  · rw [State.beginTick_of_fault hf]
    exact ⟨rfl, rfl, rfl, rfl, rfl, rfl, fun _ => rfl⟩
  · exact ⟨rfl, rfl, rfl, rfl, rfl, rfl, fun _ => rfl⟩

/-- start() of a faulted block arms the scheduler, and its tick has no instruction part. -/
theorem State.start_frozen (hf : s.fault ≠ none) (loads : Prop) : Frozen s s.start loads := by
  unfold State.start
  split
  · exact ⟨rfl, rfl, rfl, rfl, rfl, rfl, fun _ => rfl⟩
  · rw [State.beginTick_of_fault (s := s.setRunning true) hf]
    exact ⟨rfl, rfl, rfl, rfl, rfl, rfl, fun _ => rfl⟩

theorem State.loadBuffer_frozen (s : State) (bytes : List Byte) {loads : Prop} (hl : loads) :
    Frozen s (s.loadBuffer bytes) loads := by
  unfold State.loadBuffer
  split <;> exact ⟨rfl, rfl, rfl, rfl, rfl, rfl, absurd hl⟩

/-- A release has no wait to resolve. -/
theorem State.keyUp_frozen (hw : s.wait = .idle) (k : Nibble) (loads : Prop) : Frozen s (s.keyUp k) loads := by
  rw [State.keyUp_of_no_match (.inl hw)]
  exact ⟨rfl, rfl, rfl, rfl, rfl, rfl, fun _ => rfl⟩

/-- A host event other than a reset leaves a faulted block frozen; it does not wait. -/
theorem State.takeEvent_frozen (hf : s.fault ≠ none) (hw : s.wait = .idle) {e : HostEvent} (he : e ≠ .reset) :
    Frozen s (s.takeEvent e) (∃ bytes, e = .loadBuffer bytes) := by
  cases e with
  | tick => exact State.strobe_frozen hf _
  | start => exact State.start_frozen hf _
  | loadBuffer bytes => exact s.loadBuffer_frozen bytes ⟨bytes, rfl⟩
  | keyUp k => exact State.keyUp_frozen hw k _
  | reset => exact absurd rfl he
  | stop | toggleMute | keyDown => exact ⟨rfl, rfl, rfl, rfl, rfl, rfl, fun _ => rfl⟩

end

/-- Settles O56: a faulted block is in no batch and does not wait, so that a step is a host event, the start of a tick
without instructions or the end of one. -/
theorem faultStaysUntilReset : Obligations.FaultStaysUntilReset := by
  intro s t hinv hf hstep hreset
  cases hp : s.phase with
  | batch left =>
    obtain ⟨-, -, -, hnone⟩ := hinv.batchOpen left hp
    exact absurd hnone hf
  | finish =>
    rw [step_of_finish hp, State.finishTick_eq] at hstep
    obtain rfl := Host.Outcome.next.inj hstep
    exact ⟨rfl, rfl, rfl, rfl, rfl, rfl, fun _ => rfl⟩
  | between =>
    cases hi : s.inputs with
    | nil =>
      obtain rfl := Host.Outcome.next.inj ((step_of_no_event hp hi).symm.trans hstep)
      obtain ⟨hfault, hV, hI, hpc, hstack, hFB, hmem⟩ := State.strobe_frozen (s := s.setOut []) hf False
      exact ⟨hfault, hV, hI, hpc, hstack, hFB, fun _ => hmem id⟩
    | cons e es =>
      obtain rfl := Host.Outcome.next.inj ((step_of_event hp hi).symm.trans hstep)
      have he : e ≠ .reset := fun he => hreset es ⟨hp, he ▸ hi⟩
      obtain ⟨hfault, hV, hI, hpc, hstack, hFB, hmem⟩ :=
        State.takeEvent_frozen (s := (s.setOut []).setInputs es) hf (hinv.faultIdle hf) he
      exact ⟨hfault, hV, hI, hpc, hstack, hFB, fun hload => hmem fun ⟨bytes, hb⟩ => hload bytes es ⟨rfl, by rw [hb]⟩⟩

/-! ### The reset (`70_reset_and_hazards.md` R231, R232) -/

/-- Settles O48: a reset writes the same constants whatever the state, the bytes of memory follow from the font, and it
leaves the other fields. -/
theorem resetIsIdempotentAndForgets : Obligations.ResetIsIdempotentAndForgets :=
  ⟨fun _ => rfl,
    fun s t hrunning hmute hconfig => ⟨rfl, State.byteAt_congr (s := t.hostReset) (t := s.hostReset) rfl hconfig, rfl,
      rfl, rfl, rfl, rfl, rfl, rfl, rfl, rfl, rfl, hrunning, hmute, rfl⟩,
    fun _ => ⟨rfl, rfl, rfl, rfl, rfl⟩⟩

end Sys2Proof.Machine
end
